-- ==== Sys2Proof/Word.lean ====
section
/-! DEFINITION. The word types of the block (00_scope.md R5, R7): the 8-bit port byte, the 6-bit
command word, and the relay argument of RelayBank, a type of exactly eight values. -/

namespace Sys2Proof

/-- A PortByte, a mask or a data byte: 8 bits, bit 0 least significant (R5 `PORT_W`, R7). Bit `i` is
the state of relay `i + 1`, 1 for energized (R11). -/
abbrev Byte := BitVec 8

/-- A command word `cmd[5:0]` (R35). -/
abbrev CmdWord := BitVec 6

/-- The argument of the RelayBank functions: the bit position 0 to 7 of a relay, so that relay
`k`, 1 to 8, is the position `k - 1` and an index outside 1 to 8 cannot be written (R50, R11). -/
abbrev RelayPos := Fin 8

/-- The 1-based index of the relay at a bit position (R11). -/
def RelayPos.index (p : RelayPos) : Nat := p.val + 1

end Sys2Proof
end

