-- ==== Sys2Proof/Syntax.lean ====
section
/-! DEFINITION. The four commands (30_encoding.md R36), an assembler line (R41), and the names by
which the decoder rejects what is no command word (R35). -/

namespace Sys2Proof

/-- One constructor per row of spec/opcode_table.json. The ignored `idx` field of `INIT` and
`CURRENT_STATE` is no operand (R38). An index is a number; which numbers a command word can carry is
`Instr.wf` (R37, R41). -/
inductive Instr where
  /-- `INIT`, the document's `initialize` (R57). -/
  | init
  /-- `TURN_ON idx`, the document's `turn_on(index)` (R58). -/
  | turnOn (idx : Nat)
  /-- `TURN_OFF idx`, the document's `turn_off(index)` (R59). -/
  | turnOff (idx : Nat)
  /-- `CURRENT_STATE`, the document's `current_state()` (R60). -/
  | currentState
deriving DecidableEq, Repr

/-- One line of assembly, cut into its parts (R41). -/
structure AsmLine where
  /-- The name as it is spelled. -/
  name : List Char
  /-- Whether it is spelled as the document's call, `turn_on(3)`, rather than `TURN_ON 3`. -/
  call : Bool
  /-- The decimal operand, if there is one. -/
  operand : Option Nat
deriving DecidableEq, Repr

/-- Why bytes are no command word. Both are safe: nothing runs. The block itself never sees either,
since its command port has six bits (R35). -/
inductive DecodeRefusal where
  /-- There is no byte to decode. -/
  | noWord
  /-- Bits 7 and 6 of the byte are not both 0, so that it is no 6-bit word (log 17). -/
  | notSixBits
deriving DecidableEq, Repr

end Sys2Proof
end

