-- ==== Sys2Proof/WellFormed.lean ====
section
/-! DEFINITION. Which terms of `Instr` are commands a word can carry (30_encoding.md R37, R41). -/

namespace Sys2Proof

/-- An index operand that fits the unsigned 4-bit field: 0 to 15 (R37, R41). Values 0 and 9 to 15 are
legal encodings; they are rejected at execution (R39). -/
def indexFits (idx : Nat) : Bool := decide (idx ≤ 15)

/-- A well-formed command: its index, if it has one, fits the field. -/
def Instr.wf : Instr → Bool
  | .init => true
  | .turnOn idx => indexFits idx
  | .turnOff idx => indexFits idx
  | .currentState => true

end Sys2Proof
end

