-- ==== Sys2Proof/Decode.lean ====
section
/-! DEFINITION. The decoder, total on command words and on bytes; after it the encoder and the
assembler (30_encoding.md R35 to R41). -/

namespace Sys2Proof

/-- `op = cmd[5:4]` (R35). -/
def opField (w : CmdWord) : BitVec 2 := w.extractLsb' 4 2

/-- `idx = zext_4(cmd[3:0])`: unsigned, not scaled, not biased (R37). -/
def idxField (w : CmdWord) : Nat := (w.extractLsb' 0 4).toNat

/-- The command a word stands for. All 64 words decode (R36, R39); the index field of `INIT` and
`CURRENT_STATE` is ignored (R38). -/
def decode (w : CmdWord) : Instr :=
  if opField w = 0b00#2 then .init
  else if opField w = 0b01#2 then .turnOn (idxField w)
  else if opField w = 0b10#2 then .turnOff (idxField w)
  else .currentState

/-- The command word in the low six bits of a byte whose other two bits are 0 (log 17). -/
def wordOfByte (b : Byte) : Except DecodeRefusal CmdWord :=
  if b.extractLsb' 6 2 = 0b00#2 then .ok (b.extractLsb' 0 6) else .error .notSixBits

/-- The decoder on any bytes, one command a byte, with the bytes that follow it. -/
def decodeBytes : List Byte → Except DecodeRefusal (Instr × List Byte)
  | [] => .error .noWord
  | b :: rest =>
    match wordOfByte b with
    | .ok w => .ok (decode w, rest)
    | .error e => .error e

/-- The low `nbits` bits of `w` as the one byte they are laid out in; none where they do not fit one. -/
def byteOfTable (nbits w : Nat) : Option Byte :=
  if w % 2 ^ nbits < 256 then some (BitVec.ofNat 8 (w % 2 ^ nbits)) else none

/-- The command word of a row of spec/opcode_table.json whose bits are `w`. -/
def wordOfTable (nbits w : Nat) : Option CmdWord :=
  match byteOfTable nbits w with
  | none => none
  | some b =>
    match wordOfByte b with
    | .ok c => some c
    | .error _ => none

/-- What `decodeBytes` reads from an instruction whose bits are `w`; none where it rejects them. -/
def decodeTableWord (nbits w : Nat) : Option Instr :=
  match byteOfTable nbits w with
  | none => none
  | some b =>
    match decodeBytes [b] with
    | .ok (i, _) => some i
    | .error _ => none

/-- `op` above `idx` (R35). -/
def assembleFields (op : BitVec 2) (idx : Nat) : CmdWord := op ++ BitVec.ofNat 4 idx

/-- The word of a well-formed command, with 0 in an ignored field (R36, R38, R39). -/
def encode : Instr → CmdWord
  | .init => assembleFields 0b00#2 0
  | .turnOn idx => assembleFields 0b01#2 idx
  | .turnOff idx => assembleFields 0b10#2 idx
  | .currentState => assembleFields 0b11#2 0

/-- The value of a decimal digit. -/
def digitValue (c : Char) : Option Nat :=
  if '0' ≤ c ∧ c ≤ '9' then some (c.toNat - 48) else none

/-- The number that digits continue, `acc` being the digits before them; none at any other character, a
sign included. -/
def decimalFrom (acc : Nat) : List Char → Option Nat
  | [] => some acc
  | c :: rest =>
    match digitValue c with
    | some d => decimalFrom (acc * 10 + d) rest
    | none => none

/-- A decimal number of at least one digit (R41). -/
def decimal : List Char → Option Nat
  | [] => none
  | c :: rest => decimalFrom 0 (c :: rest)

/-- A line in one of its four forms, `NAME`, `NAME n`, `name()`, `name(n)` (R41). Blanks anywhere else
are not accepted: log 18. -/
def splitLine (line : List Char) : Option AsmLine :=
  let name := (line.span fun c => c ≠ ' ' && c ≠ '(').1
  match (line.span fun c => c ≠ ' ' && c ≠ '(').2 with
  | [] => some ⟨name, false, none⟩
  | ' ' :: arg => (decimal arg).map fun n => ⟨name, false, some n⟩
  | '(' :: ')' :: [] => some ⟨name, true, none⟩
  | '(' :: arg =>
    if arg.getLast? = some ')' then (decimal arg.dropLast).map fun n => ⟨name, true, some n⟩
    else none
  | _ => none

/-- An assembler operand that can be encoded: 0 to 15 (R41, 93_implementation_defined.md U18). -/
def asmIndex (n : Nat) : Option Nat := if n ≤ 15 then some n else none

/-- The command of an assembler line, in the mnemonics or in the document's spelling (R41); none where
the assembler refuses it. There are no pseudo-instructions (R42). -/
def parseLine (l : AsmLine) : Option Instr :=
  match l.operand with
  | none =>
    if l.name = (if l.call then "initialize" else "INIT").toList then some .init
    else if l.name = (if l.call then "current_state" else "CURRENT_STATE").toList then
      some .currentState
    else none
  | some n =>
    if l.name = (if l.call then "turn_on" else "TURN_ON").toList then (asmIndex n).map .turnOn
    else if l.name = (if l.call then "turn_off" else "TURN_OFF").toList then (asmIndex n).map .turnOff
    else none

/-- The word an assembler line stands for (R41). -/
def assemble (line : String) : Option CmdWord :=
  match splitLine line.toList with
  | some l => (parseLine l).map encode
  | none => none

end Sys2Proof
end

