-- ==== Sys2Proof/Config.lean ====
section
/-! DEFINITION. What the spec leaves to an implementation or to the environment: the four parameters
of 00_scope.md R5, and the free values, opaque constants of which nothing can be proved. -/

namespace Sys2Proof

/-- Where `TURN_ON` and `TURN_OFF` take the current byte from (R5 `RMW_SOURCE`, R62). -/
inductive RmwSource where
  /-- The cached byte: the baseline. -/
  | cache
  /-- A `DevRead` before the write: the read-before-write policy. -/
  | deviceRead
deriving DecidableEq, Repr

/-- The four parameters a model takes as arguments of its configuration (R5; 92_eei_decisions.md
D10, D11, D12, D24). -/
structure Params where
  /-- `INIT_VALUE`: the byte `INIT` loads and writes. -/
  initValue : Byte
  /-- `INIT_RESYNC`: `INIT` takes the initial byte from a device read instead. -/
  initResync : Bool
  /-- `RMW_SOURCE`. -/
  rmwSource : RmwSource
  /-- `EXCLUSIVE`: the assumption that no other agent writes the device. -/
  exclusive : Bool
deriving DecidableEq, Repr

/-- The document's baseline (R5). -/
def Params.baseline : Params :=
  { initValue := 0x00#8, initResync := false, rmwSource := .cache, exclusive := true }

/-- Whether the `n`-th device operation since the model's start answers ok, where no input is placed
for it (R24, 93_implementation_defined.md U8). Free: log 4. -/
opaque Config.freeOk : Nat → Bool

/-- The byte the environment chooses at the `n`-th device operation, where no input is placed for it:
what an unconstrained read returns (R23, U7; log 6) and what `DEV_DIR` becomes after a failed
`DevSetDir` (R21, U6; log 5). Free. -/
opaque Config.freeByte : Nat → Byte

/-- What another writer puts into the port just before the `n`-th device operation answers, where no
input is placed for it (R27, R32, U11). Free, and without effect under `EXCLUSIVE = true`: log 10. -/
opaque Config.freeOther : Nat → Option Byte

end Sys2Proof
end

