-- ==== Sys2Proof/Machine/State.lean ====
section
/-! DEFINITION. The state of the block, of the device behind it and of its environment, as plain data;
the state after reset; the reasons for which a step stops. -/

namespace Sys2Proof.Machine

/-- The result of a completed command (30_encoding.md R40). Only the success of `CURRENT_STATE`
carries a data byte, so that no other result exposes one (R40, 92_eei_decisions.md D27). -/
inductive Reply where
  /-- `OK` of `INIT`, `TURN_ON`, `TURN_OFF`. -/
  | ok
  /-- `OK` of `CURRENT_STATE`, with `rdata` (R60). -/
  | okData (rdata : Byte)
  /-- `InvalidRelayIndex` (R66). -/
  | invalidRelayIndex
  /-- `DeviceWriteError` (R67). -/
  | deviceWriteError
  /-- `DeviceInitError` (R68). -/
  | deviceInitError
deriving DecidableEq, Repr

/-- One device operation as the device sees it, with its answer (20_memory.md R20 to R24). -/
inductive BusEvent where
  /-- `DevSetDir(mask)` (R21). -/
  | setDir (mask : Byte) (ok : Bool)
  /-- `DevWrite(value)` (R22). -/
  | write (value : Byte) (ok : Bool)
  /-- `DevRead()`, answered with a byte or with fail (R23). -/
  | read (answer : Option Byte)
deriving DecidableEq, Repr

/-- What the environment contributes to one device operation (R24): all of it free. -/
structure DevInput where
  /-- Whether the operation answers ok. -/
  ok : Bool
  /-- The byte of a read that R23 leaves free, and what `DEV_DIR` becomes after a failed `DevSetDir`
  (R21). Any other operation ignores it. -/
  byte : Byte
  /-- What another writer puts into the port just before the operation takes place (R27, R32); ignored
  under `EXCLUSIVE = true`. -/
  other : Option Byte
deriving DecidableEq, Repr

/-- What happens at the block's boundary between two commands. -/
inductive EnvEvent where
  /-- The host presents a command word (R6, R35). -/
  | command (w : CmdWord)
  /-- Another writer sets the port (R85, 92_eei_decisions.md D24). -/
  | otherWrite (b : Byte)
  /-- The device stops answering, or answers again (R34). -/
  | deviceSilent (silent : Bool)
  /-- The owning process ends and another starts (R16, R18). `none`: the new one finds the device as it
  was left; `some (port, dir)`: as something outside the processes put it (R16, any byte). -/
  | restart (found : Option (Byte × Byte))
deriving DecidableEq, Repr

/-- Everything the spec gives the machine. INVENTORY.md says which fields are the block's, which the
device's, and which the model's own. -/
structure State where
  /-- `CACHE` (10_state.md R10); `none` is the spec's "no value" (R16), log 1. -/
  cache : Option Byte
  /-- `READY` (R12). -/
  ready : Bool
  /-- `DEV_PORT`, the byte the device last accepted (R15). -/
  devPort : Byte
  /-- `DEV_DIR`, the direction mask the device last accepted (R15). -/
  devDir : Byte
  /-- Model's own: a `DevWrite` of this block has succeeded since reset (R23), log 6. -/
  devWritten : Bool
  /-- Model's own: the device answers nothing more (R34), log 7. -/
  devSilent : Bool
  /-- The parameters (R5), changed by no step, log 3. -/
  params : Params
  /-- Model's own: what the environment presents, oldest first (R6, R64), log 8. -/
  events : List EnvEvent
  /-- Model's own: device answers already settled, oldest first (R24), log 4. -/
  inputs : List DevInput
  /-- Model's own: device operations issued so far, the index of the next free value, log 4. -/
  drawn : Nat
  /-- Model's own: the device operations issued, oldest first (R30), log 11. -/
  bus : List BusEvent
  /-- Model's own: the results given to the host, oldest first (R40), log 11. -/
  replies : List Reply
deriving DecidableEq, Repr

/-- The state right after reset (R16, R78) of a block with parameters `p` whose device holds `port` and
`dir`, each of which may be any byte (93_implementation_defined.md U5). Reset issues no device
operation (R78). -/
def State.start (p : Params) (port dir : Byte) : State :=
  { cache := none, ready := false, devPort := port, devDir := dir, devWritten := false,
    devSilent := false, params := p, events := [], inputs := [], drawn := 0, bus := [],
    replies := [] }

/-- The machine right after reset: the baseline parameters (R5). The two device bytes, which the spec
leaves as any byte, are 0x00 here: DESIGN CHOICE, unsafe, log 2. -/
def State.reset : State := State.start Params.baseline 0x00#8 0x00#8

/-- Why a step stops with a fault. -/
inductive Fault where
  /-- Raised by `TURN_ON`, `TURN_OFF` and `CURRENT_STATE` while `READY = 0`, and by a read of `CACHE`
  while it holds no value: `fault NotReady` (60_exceptions.md R75). Safe: no result, no successor. -/
  | notReady
  /-- Raised by a command that issues a device operation while the device answers nothing: the stuck
  state of 20_memory.md R34 (93_implementation_defined.md U9). Safe: no result, no successor. -/
  | deviceSilent
deriving DecidableEq, Repr

/-- Why a step gives no meaning. -/
inductive Refusal where
  /-- Raised by an arm of `exec` whose instruction has no meaning yet; no arm is such an arm. Safe. -/
  | notModelled (mnemonic : String)
deriving DecidableEq, Repr

/-- The outcome of a command or a step. -/
abbrev Outcome := Host.Outcome State Fault Refusal

end Sys2Proof.Machine
end

