-- ==== Sys2Proof/Machine/Flags.lean ====
section
/-! DEFINITION. The one flag of the block, `READY` (10_state.md R12). There are no status flags and no
condition codes (R14, R56), so no command computes any. -/

namespace Sys2Proof.Machine

/-- `if READY = 0: fault NotReady` (60_exceptions.md R75), the first test of a command (R72). -/
def ifReady (s : State) (k : Outcome) : Outcome := if s.ready then k else .fault .notReady

/-- `READY <- 1` (R57, R12). -/
def State.setReady (s : State) : State := { s with ready := true }

/-- `READY <- 0 ; CACHE <- no value` (R57, R68). -/
def State.dropReady (s : State) : State := { s with ready := false, cache := none }

end Sys2Proof.Machine
end

