-- ==== Sys2Proof/Machine/Operands.lean ====
section
/-! DEFINITION. The operands of a command: the relay index (10_state.md R13) and the two sources of a
byte (41_controller.md R57, R58, R62, R63; the sources that read the device stand in Ops.lean). -/

namespace Sys2Proof.Machine

/-- `valid(idx)`, and the RelayBank argument a valid index stands for; none for an index that
`InvalidRelayIndex` rejects (R13, R58). -/
def relayPos? (idx : Nat) : Option RelayPos :=
  if h : 1 ≤ idx ∧ idx ≤ 8 then some ⟨idx - 1, by omega⟩ else none

end Sys2Proof.Machine
end

