-- ==== Sys2Proof/Machine/Ops.lean ====
section
/-! DEFINITION. The shared operations: the PortDevice's three operations and what the environment
contributes to them (20_memory.md), the delivery of a result, which is all that an error of this block
is (60_exceptions.md R73), and the events at the block's boundary. -/

namespace Sys2Proof.Machine

/-! ## Inputs of a device operation -/

/-- The input of the `n`-th device operation where none is placed: free values (R24, log 4). -/
def DevInput.free (n : Nat) : DevInput :=
  { ok := Config.freeOk n, byte := Config.freeByte n, other := Config.freeOther n }

/-- The port as the device operation with this input finds it: what another writer put there, if there
may be one (R27, R32; log 10). -/
def DevInput.portSeen (i : DevInput) (exclusive : Bool) (port : Byte) : Byte :=
  if exclusive then port else i.other.getD port

/-- The input of the device operation `k` places after the next one. -/
def State.inputAt (s : State) (k : Nat) : DevInput :=
  (s.inputs[k]?).getD (DevInput.free (s.drawn + k))

/-- The input of the next device operation. -/
def State.input (s : State) : DevInput := s.inputAt 0

/-- The state in which the next device operation takes place: its input used up, another writer's
write, if any, done. -/
def State.beginDevOp (s : State) : State :=
  { s with
    devPort := s.input.portSeen s.params.exclusive s.devPort
    inputs := s.inputs.tail
    drawn := s.drawn + 1 }

/-- A device operation is seen on the bus. -/
def State.logBus (s : State) (e : BusEvent) : State := { s with bus := s.bus ++ [e] }

/-- `DEV_DIR <- m` (R21). -/
def State.setDir (s : State) (m : Byte) : State := { s with devDir := m }

/-- `DEV_PORT <- v`, accepted from this block (R22, R23). -/
def State.acceptWrite (s : State) (v : Byte) : State := { s with devPort := v, devWritten := true }

/-! ## The three device operations -/

/-- `DevSetDir(m)`: whether it answered ok, and the state after it. After a fail `DEV_DIR` is any byte
(R21, log 5). `DEV_PORT` is not changed (R21, log 16). -/
def devSetDir (m : Byte) (s : State) : Bool × State :=
  (s.input.ok,
    (s.beginDevOp.setDir (if s.input.ok then m else s.input.byte)).logBus (.setDir m s.input.ok))

/-- `DevWrite(v)`: whether it answered ok, and the state after it; the port is unchanged after a fail
(R22). -/
def devWrite (v : Byte) (s : State) : Bool × State :=
  (s.input.ok,
    (if s.input.ok then s.beginDevOp.acceptWrite v else s.beginDevOp).logBus (.write v s.input.ok))

/-- The byte a successful read returns: `DEV_PORT` when all pins are outputs and this block has written
the port since reset, else any byte (R23, log 6). -/
def readByte (s : State) : Byte :=
  if s.devDir = 0xFF#8 ∧ s.devWritten = true then s.beginDevOp.devPort else s.input.byte

/-- The answer of the next `DevRead()` (R23). -/
def readAnswer (s : State) : Option Byte := if s.input.ok then some (readByte s) else none

/-- `DevRead()`: the byte read, or none for fail, and the state after it, which the read itself does not
change (R23). -/
def devRead (s : State) : Option Byte × State :=
  (readAnswer s, s.beginDevOp.logBus (.read (readAnswer s)))

/-- A command that is about to issue a device operation gets stuck when the device answers nothing
(R34, log 7). -/
def ifAnswering (s : State) (k : Outcome) : Outcome :=
  if s.devSilent then .fault .deviceSilent else k

/-! ## The cache -/

/-- `CACHE <- v` (R10). -/
def State.loadCache (s : State) (v : Byte) : State := { s with cache := some v }

/-- Read `CACHE`; while it holds no value this is the fault of R75 (00_scope.md R8, log 13). -/
def readCache (s : State) (k : Byte → Outcome) : Outcome :=
  match s.cache with
  | some v => k v
  | none => .fault .notReady

/-! ## Delivering a result -/

/-- The result reaches the host. -/
def State.pushReply (s : State) (r : Reply) : State := { s with replies := s.replies ++ [r] }

/-- End the command with a result, `OK` or an error: nothing is saved, no mode changes, control goes
nowhere (60_exceptions.md R73). There is no return from it (R74). -/
def deliver (run : Reply × State) : Outcome := .next (run.2.pushReply run.1)

/-- The two result bits `res[1:0]` (30_encoding.md R40). -/
def Reply.res : Reply → BitVec 2
  | .ok => 0b00#2
  | .okData _ => 0b00#2
  | .invalidRelayIndex => 0b01#2
  | .deviceWriteError => 0b10#2
  | .deviceInitError => 0b11#2

/-- `rdata[7:0]`, an output only with the `OK` of `CURRENT_STATE` (R40). -/
def Reply.rdata? : Reply → Option Byte
  | .okData b => some b
  | .ok => none
  | .invalidRelayIndex => none
  | .deviceWriteError => none
  | .deviceInitError => none

/-! ## Events at the boundary -/

/-- The oldest event the environment presents, and the state without it. -/
def takeEvent (s : State) : Option (EnvEvent × State) :=
  match s.events with
  | [] => none
  | e :: rest => some (e, { s with events := rest })

/-- The host presents `w` next, before anything already waiting; nothing is presented where there is no
command word. -/
def presentWord (w : Option CmdWord) (s : State) : State :=
  match w with
  | some c => { s with events := .command c :: s.events }
  | none => s

/-- Nothing is presented: the block waits and changes nothing (R6, log 9). -/
def waitForEvent (s : State) : Outcome := .next s

/-- Another writer sets the port between two commands; under `EXCLUSIVE = true` the model gives it no
effect (92_eei_decisions.md D24, log 10). -/
def otherWrite (b : Byte) (s : State) : State :=
  if s.params.exclusive then s else { s with devPort := b }

/-- The device falls silent, or answers again (R34, log 7). -/
def setSilent (silent : Bool) (s : State) : State := { s with devSilent := silent }

/-- The owning process ends, which destroys `CACHE` and `READY` and leaves the device as it was (R18),
and a new one starts in the reset state (R16, R78; log 12). -/
def restart (found : Option (Byte × Byte)) (s : State) : State :=
  { s with
    cache := none
    ready := false
    devPort := (found.map Prod.fst).getD s.devPort
    devDir := (found.map Prod.snd).getD s.devDir
    devWritten := false }

end Sys2Proof.Machine
end

