-- ==== Sys2Proof/Machine/RelayBank.lean ====
section
/-! DEFINITION. RelayBank (40_relaybank.md): pure functions, no state, no device operation. Their relay
argument has exactly eight values, so that they are never extended outside 1 to 8 (R50, log 14). With
them, what R52 has a model prove of them. -/

namespace Sys2Proof.Machine

/-- `BIT_MASK_ON(index) = 1 << (index - 1)` (R45). -/
def bitMaskOn (p : RelayPos) : Byte := 1#8 <<< p.val

/-- `BIT_MASK_OFF(index) = ~8(BIT_MASK_ON(index))` (R46). -/
def bitMaskOff (p : RelayPos) : Byte := ~~~ bitMaskOn p

/-- `APPLY_ON(current, index) = current | BIT_MASK_ON(index)` (R47). -/
def applyOn (current : Byte) (p : RelayPos) : Byte := current ||| bitMaskOn p

/-- `APPLY_OFF(current, index) = current & BIT_MASK_OFF(index)` (R48). -/
def applyOff (current : Byte) (p : RelayPos) : Byte := current &&& bitMaskOff p

/-- `RELAY_SEL(p, index) = p[index - 1]`, notation for stating properties (R49). -/
def relaySel (port : Byte) (p : RelayPos) : Bool := port.getLsbD p.val

/-! ## Preservation and forcing (R52), proved of the functions and not assumed -/

/-- R52 as a property of a function on port bytes: it leaves the relay it is given at `on`, and every
other relay as it was. -/
def ForcesOnly (apply : Byte → RelayPos → Byte) (on : Bool) : Prop :=
  ∀ (current : Byte) (p : RelayPos),
    relaySel (apply current p) p = on ∧
    ∀ q, q ≠ p → relaySel (apply current p) q = relaySel current q

/-- Bit `j` of `BIT_MASK_ON` (R45). -/
theorem bitMaskOn_getLsbD (p : RelayPos) (j : Nat) :
    (bitMaskOn p).getLsbD j = decide (j = p.val) := by
  have hp := p.isLt
  unfold bitMaskOn
  rw [BitVec.getLsbD_shiftLeft, BitVec.getLsbD_one]
  by_cases h : j = p.val
  · subst h; simp
  · simp only [h, decide_false]
    by_cases h' : j < p.val
    · simp [h']
    · simp [h']
      omega

/-- Bit `j` of `BIT_MASK_OFF` (R46). -/
theorem bitMaskOff_getLsbD (p : RelayPos) {j : Nat} (hj : j < 8) :
    (bitMaskOff p).getLsbD j = decide (j ≠ p.val) := by
  rw [bitMaskOff, BitVec.getLsbD_not, bitMaskOn_getLsbD]
  simp [hj]

/-- Every relay after `APPLY_ON`. -/
@[simp] theorem relaySel_applyOn (c : Byte) (p q : RelayPos) :
    relaySel (applyOn c p) q = (relaySel c q || decide (q = p)) := by
  rw [relaySel, applyOn, BitVec.getLsbD_or, bitMaskOn_getLsbD, relaySel]
  simp [Fin.ext_iff]

/-- Every relay after `APPLY_OFF`. -/
@[simp] theorem relaySel_applyOff (c : Byte) (p q : RelayPos) :
    relaySel (applyOff c p) q = (relaySel c q && decide (q ≠ p)) := by
  rw [relaySel, applyOff, BitVec.getLsbD_and, bitMaskOff_getLsbD p q.isLt, relaySel]
  simp [Fin.ext_iff]

/-- R52: `APPLY_ON` forces its relay to 1 and preserves the other seven. -/
theorem applyOn_forcesOnly : ForcesOnly applyOn true := fun c p =>
  ⟨by simp, fun q hq => by simp [hq]⟩

/-- R52: `APPLY_OFF` forces its relay to 0 and preserves the other seven. -/
theorem applyOff_forcesOnly : ForcesOnly applyOff false := fun c p =>
  ⟨by simp, fun q hq => by simp [hq]⟩

end Sys2Proof.Machine
end

