-- ==== Sys2Proof/Machine/Controller.lean ====
section
/-! DEFINITION. RelayController: the four commands (41_controller.md). A command that reaches its end is
a function from the state to a reply and a state, which `deliver` turns into the outcome. -/

namespace Sys2Proof.Machine

/-- The initial byte of `INIT`: `INIT_VALUE` (R57), or with `INIT_RESYNC = true` the byte of a
`DevRead`, none when that fails (R63). -/
def initialByte (s : State) : Option Byte × State :=
  if s.params.initResync then devRead s else (some s.params.initValue, s)

/-- The end of `INIT`: write the initial byte; load the cache and set `READY` only when the device has
accepted it (R57, 90_conflicts.md C11). -/
def initStore (v : Byte) (s : State) : Reply × State :=
  let w := devWrite v s
  if w.1 then (.ok, (w.2.loadCache v).setReady) else (.deviceWriteError, w.2)

/-- The pseudocode of `INIT` (R57, R63). -/
def initRun (s : State) : Reply × State :=
  let d := devSetDir 0xFF#8 s
  if d.1 then
    let v := initialByte d.2
    match v.1 with
    | some b => initStore b v.2
    | none => (.deviceInitError, v.2.dropReady)
  else (.deviceInitError, d.2.dropReady)

/-- `INIT` (R57, R63), accepted in every state. -/
def execInit (s : State) : Outcome := ifAnswering s (deliver (initRun s))

/-- The end of `TURN_ON` and `TURN_OFF`: write the new byte, and update the cache only when the device
has accepted it (R58, R59). The write is never suppressed (R61). -/
def writeBack (new : Byte) (s : State) : Reply × State :=
  let w := devWrite new s
  if w.1 then (.ok, w.2.loadCache new) else (.deviceWriteError, w.2)

/-- The read-before-write variant: a failed read ends the command with nothing written (R62). -/
def readThenWrite (apply : Byte → RelayPos → Byte) (p : RelayPos) (s : State) : Reply × State :=
  let r := devRead s
  match r.1 with
  | some cur => writeBack (apply cur p) r.2
  | none => (.deviceWriteError, r.2)

/-- The masked read-modify-write of a valid relay, from the byte's source (R58, R59, R62). -/
def readModifyWrite (apply : Byte → RelayPos → Byte) (p : RelayPos) (s : State) : Outcome :=
  match s.params.rmwSource with
  | .cache => readCache s fun cur => ifAnswering s (deliver (writeBack (apply cur p) s))
  | .deviceRead => ifAnswering s (deliver (readThenWrite apply p s))

/-- `TURN_ON` and `TURN_OFF` but for the function applied, with the tests in the order of R72: `READY`,
the index, then the device (R58, R59). -/
def relayCommand (apply : Byte → RelayPos → Byte) (idx : Nat) (s : State) : Outcome :=
  ifReady s
    (match relayPos? idx with
      | none => deliver (.invalidRelayIndex, s)
      | some p => readModifyWrite apply p s)

/-- `TURN_ON idx` (R58). -/
def execTurnOn (idx : Nat) (s : State) : Outcome := relayCommand applyOn idx s

/-- `TURN_OFF idx` (R59). -/
def execTurnOff (idx : Nat) (s : State) : Outcome := relayCommand applyOff idx s

/-- `CURRENT_STATE` (R60): the cached byte, with no device operation. -/
def execCurrentState (s : State) : Outcome :=
  ifReady s (readCache s fun v => deliver (.okData v, s))

end Sys2Proof.Machine
end

