-- ==== Sys2Proof/Machine/Dispatch.lean ====
section
/-! DEFINITION. `exec`: one arm per command (30_encoding.md R36). -/

namespace Sys2Proof.Machine

def exec (i : Instr) (s : State) : Host.Outcome State Fault Refusal :=
  match i with
  | .init => Sys2Proof.Machine.execInit s
  | .turnOn idx => Sys2Proof.Machine.execTurnOn idx s
  | .turnOff idx => Sys2Proof.Machine.execTurnOff idx s
  | .currentState => Sys2Proof.Machine.execCurrentState s

end Sys2Proof.Machine
end

