-- ==== Sys2Proof/Machine/Step.lean ====
section
/-! DEFINITION. One step: the block takes the oldest event the environment presents. A command word is
decoded and run alone and to completion (41_controller.md R56, 20_memory.md R30). -/

namespace Sys2Proof.Machine

/-- One step of the machine. -/
def step (s : State) : Host.Outcome State Fault Refusal :=
  match takeEvent s with
  | none => waitForEvent s
  | some (.command w, s') => exec (decode w) s'
  | some (.otherWrite b, s') => .next (otherWrite b s')
  | some (.deviceSilent q, s') => .next (setSilent q s')
  | some (.restart found, s') => .next (restart found s')

/-- The state in which the host presents the opcode-table word `w` next (log 8). -/
def State.withFetchWord (s : State) (nbits w : Nat) : State := presentWord (wordOfTable nbits w) s

end Sys2Proof.Machine
end

