-- ==== Sys2Proof/Safety.lean ====
section
/-! DEFINITION. The terms in which claims speak of a safe machine: the invariants of 10_state.md, what
it means to leave the architectural state alone, and which result a command may return. -/

namespace Sys2Proof.Machine

/-- Cache coherence (10_state.md R17): without other writers, a ready controller's cache is the port and
all pins are outputs. -/
abbrev State.Coherent (s : State) : Prop :=
  s.params.exclusive = true → s.ready = true → s.cache = some s.devPort ∧ s.devDir = 0xFF#8

/-- `CACHE` holds a value exactly when `READY = 1` (10_state.md R12, R16), and a ready controller has
written the port since reset (R57). -/
abbrev State.Usable (s : State) : Prop :=
  s.ready = s.cache.isSome ∧ (s.ready = true → s.devWritten = true)

/-- The invariant every step keeps. -/
abbrev State.Inv (s : State) : Prop := s.Coherent ∧ s.Usable

/-- `(CACHE, READY, DEV_PORT, DEV_DIR)`, the state the spec writes in its vectors, is the same. -/
abbrev SameArch (s t : State) : Prop :=
  t.cache = s.cache ∧ t.ready = s.ready ∧ t.devPort = s.devPort ∧ t.devDir = s.devDir

/-- The next event is a command word that decodes to `i`. -/
abbrev NextCommand (s : State) (i : Instr) : Prop :=
  ∃ w rest, s.events = .command w :: rest ∧ decode w = i

/-- Which command can return which result (30_encoding.md R40, 60_exceptions.md R70). -/
def mayReply : Instr → Reply → Bool
  | .init, r => r == .ok || r == .deviceWriteError || r == .deviceInitError
  | .turnOn _, r => r == .ok || r == .invalidRelayIndex || r == .deviceWriteError
  | .turnOff _, r => r == .ok || r == .invalidRelayIndex || r == .deviceWriteError
  | .currentState, r => r.rdata?.isSome

end Sys2Proof.Machine
end

