-- ==== Sys2Proof/Certificates/Slice0/Obligations.lean ====
section
/-! DEFINITION. The statements about this model for the provers. Each docstring names the rule of spec/
it comes from; where a clause rests on the model's own choice it names the log entry. -/

open Sys2Proof Sys2Proof.Machine

/-! ## RelayBank -/

/-- 10_state.md R11, R13 and 40_relaybank.md R50: the valid indices are 1 to 8, each stands for the bit
position one below it, and no other index gives an argument of RelayBank. That the argument is a bit
position is log 14. -/
def Obligations.IndexAndBitPositionsAgree : Prop :=
  (∀ (idx : Nat) (p : RelayPos), relayPos? idx = some p ↔ 1 ≤ idx ∧ idx ≤ 8 ∧ p.val = idx - 1) ∧
  (∀ idx : Nat, relayPos? idx = none ↔ idx = 0 ∨ 9 ≤ idx)

/-- R45. -/
def Obligations.MaskOnHasExactlyItsBit : Prop :=
  ∀ (idx : Nat) (p : RelayPos), relayPos? idx = some p →
    bitMaskOn p = BitVec.ofNat 8 (2 ^ (idx - 1)) ∧
    (bitMaskOn p).toNat = 2 ^ (idx - 1) ∧
    ∀ j, j < 8 → ((bitMaskOn p).getLsbD j = true ↔ j = idx - 1)

/-- R46. -/
def Obligations.MaskOffLacksExactlyItsBit : Prop :=
  ∀ (idx : Nat) (p : RelayPos), relayPos? idx = some p →
    bitMaskOff p = bitMaskOn p ^^^ 0xFF#8 ∧
    bitMaskOff p = 0xFF#8 - bitMaskOn p ∧
    ∀ j, j < 8 → ((bitMaskOff p).getLsbD j = false ↔ j = idx - 1)

/-- R47, R48: the formulas, the forced bit, the seven preserved bits, idempotence. -/
def Obligations.ApplyForcesOneBitAndKeepsSeven : Prop :=
  ∀ (c : Byte) (p : RelayPos),
    applyOn c p = c ||| (1#8 <<< p.val) ∧
    applyOff c p = c &&& ~~~(1#8 <<< p.val) ∧
    relaySel (applyOn c p) p = true ∧ relaySel (applyOff c p) p = false ∧
    (∀ q, q ≠ p → relaySel (applyOn c p) q = relaySel c q ∧
      relaySel (applyOff c p) q = relaySel c q) ∧
    applyOn (applyOn c p) p = applyOn c p ∧ applyOff (applyOff c p) p = applyOff c p

/-- R52, in the spec's notation `RELAY_SEL` and, as the document quoted there says it, for the bit
`index - 1` of every valid index. -/
def Obligations.ForcingAndPreservation : Prop :=
  ForcesOnly applyOn true ∧ ForcesOnly applyOff false ∧
  ∀ (c : Byte) (idx : Nat) (p : RelayPos), relayPos? idx = some p →
    (applyOn c p).getLsbD (idx - 1) = true ∧ (applyOff c p).getLsbD (idx - 1) = false ∧
    ∀ j, j < 8 → j ≠ idx - 1 →
      (applyOn c p).getLsbD j = c.getLsbD j ∧ (applyOff c p).getLsbD j = c.getLsbD j

/-- The spec's own inference in R53 and 90_conflicts.md C10: operations on distinct relays commute, and
the equation as the document prints it is false for every byte and every two distinct relays. -/
def Obligations.DistinctRelaysCommute : Prop :=
  ∀ (x : Byte) (i j : RelayPos), i ≠ j →
    applyOn (applyOff x i) j = applyOff (applyOn x j) i ∧
    applyOn (applyOn x i) j = applyOn (applyOn x j) i ∧
    applyOff (applyOff x i) j = applyOff (applyOff x j) i ∧
    applyOn (applyOff x i) j ≠ applyOff (applyOn x i) j

/-- R54 with the spec's own inference there: the masks are pairwise distinct, cover every bit once, have
OR 0xFF, and any two have AND 0x00. -/
def Obligations.MasksCoverThePortOnce : Prop :=
  (∀ p q, bitMaskOn p = bitMaskOn q → p = q) ∧
  (∀ j, j < 8 → ∃ p, (bitMaskOn p).getLsbD j = true ∧ ∀ q, (bitMaskOn q).getLsbD j = true → q = p) ∧
  (List.finRange 8).foldl (fun b p => b ||| bitMaskOn p) 0x00#8 = 0xFF#8 ∧
  (∀ p q, p ≠ q → bitMaskOn p &&& bitMaskOn q = 0x00#8)

/-- The spec's own inference in R55: setting and clearing undo each other exactly from the known prior
state, so neither is a toggle. -/
def Obligations.SettingIsNotToggling : Prop :=
  ∀ (x : Byte) (p : RelayPos),
    (applyOff (applyOn x p) p = x ↔ relaySel x p = false) ∧
    (applyOn (applyOff x p) p = x ↔ relaySel x p = true)

/-! ## Encoding -/

/-- 30_encoding.md sections 1 to 3: decoding the word of a well-formed command gives the command. -/
def Obligations.DecodeOfEncode : Prop :=
  ∀ i : Instr, i.wf = true → decode (encode i) = i

/-- The other direction: what any of the 64 words decodes to is well formed; encoding it gives the word
back, but for an ignored index field, which is 0 then (R38). -/
def Obligations.EncodeOfDecode : Prop :=
  ∀ w : CmdWord, (decode w).wf = true ∧ opField (encode (decode w)) = opField w ∧
    ((decode w = .init ∨ decode w = .currentState) → idxField (encode (decode w)) = 0) ∧
    (decode w ≠ .init → decode w ≠ .currentState → encode (decode w) = w)

/-- R39: the complete map, the canonical words, and the invalid index that is rejected at execution. -/
def Obligations.CommandMap : Prop :=
  (∀ w : CmdWord, ∃ (op : BitVec 2) (x : BitVec 4), w = op ++ x) ∧
  (∀ x : BitVec 4,
    decode (0b00#2 ++ x) = .init ∧ decode (0b01#2 ++ x) = .turnOn x.toNat ∧
    decode (0b10#2 ++ x) = .turnOff x.toNat ∧ decode (0b11#2 ++ x) = .currentState) ∧
  encode .init = 0x00#6 ∧ encode .currentState = 0x30#6 ∧
  (∀ idx, idx ≤ 15 → (encode (.turnOn idx)).toNat = 0x10 + idx ∧
    (encode (.turnOff idx)).toNat = 0x20 + idx) ∧
  (∀ (x : BitVec 4) (s : State), s.ready = true → (x.toNat = 0 ∨ 9 ≤ x.toNat) →
    exec (decode (0b01#2 ++ x)) s = .next { s with replies := s.replies ++ [.invalidRelayIndex] } ∧
    exec (decode (0b10#2 ++ x)) s = .next { s with replies := s.replies ++ [.invalidRelayIndex] })

/-- Words of 95_test_vectors.md section 3, written out bit by bit from R35: V-E3, V-E6, V-E9, V-E12,
V-E15. -/
def Obligations.SampleWordsDecode : Prop :=
  decode 0b000111#6 = .init ∧ decode 0b010101#6 = .turnOn 5 ∧ decode 0b011111#6 = .turnOn 15 ∧
  decode 0b101000#6 = .turnOff 8 ∧ decode 0b111111#6 = .currentState

/-- R41: the words of the four commands in both spellings, with every operand 0 to 15; a larger operand
is refused in either spelling, and so is a negative one. -/
def Obligations.AssemblerGivesTheWords : Prop :=
  assemble "INIT" = some 0x00#6 ∧ assemble "initialize()" = some 0x00#6 ∧
  assemble "CURRENT_STATE" = some 0x30#6 ∧ assemble "current_state()" = some 0x30#6 ∧
  (∀ n, n ≤ 15 →
    assemble ("TURN_ON " ++ toString n) = some (BitVec.ofNat 6 (0x10 + n)) ∧
    assemble ("turn_on(" ++ toString n ++ ")") = some (BitVec.ofNat 6 (0x10 + n)) ∧
    assemble ("TURN_OFF " ++ toString n) = some (BitVec.ofNat 6 (0x20 + n)) ∧
    assemble ("turn_off(" ++ toString n ++ ")") = some (BitVec.ofNat 6 (0x20 + n))) ∧
  (∀ (name : List Char) (call : Bool) (n : Nat), 15 < n → parseLine ⟨name, call, some n⟩ = none) ∧
  assemble "TURN_ON -1" = none ∧ assemble "turn_off(-1)" = none

/-! ## Results -/

/-- R40: a completed command gives exactly one result, one its row of the table allows, with a data byte
for `CURRENT_STATE` and for nothing else; the codes. -/
def Obligations.EveryCommandGivesOneResult : Prop :=
  (∀ (i : Instr) (s t : State), exec i s = .next t →
    ∃ r, t.replies = s.replies ++ [r] ∧ mayReply i r = true ∧
      (r.rdata?.isSome = true ↔ i = .currentState)) ∧
  Reply.res .ok = 0b00#2 ∧ (∀ b, Reply.res (.okData b) = 0b00#2) ∧
  Reply.res .invalidRelayIndex = 0b01#2 ∧ Reply.res .deviceWriteError = 0b10#2 ∧
  Reply.res .deviceInitError = 0b11#2

/-! ## The machine -/

/-- 41_controller.md R56 and 30_encoding.md R35: a step at a presented word runs the decoded command, on
the state without that event. That words are presented through the list of events is log 8. -/
def Obligations.StepRunsTheDecodedCommand : Prop :=
  ∀ (s : State) (w : CmdWord) (rest : List EnvEvent), s.events = .command w :: rest →
    step s = exec (decode w) { s with events := rest }

/-- The word of a well-formed command, placed as the next, is read as that command and run; `step` adds
nothing else (log 8). -/
def Obligations.PlacedWordRunsItsCommand : Prop :=
  ∀ (i : Instr) (s : State), i.wf = true →
    decodeTableWord 8 (encode i).toNat = some i ∧
    step (s.withFetchWord 8 (encode i).toNat) = exec i s

/-- The model's own choice of what the environment does between commands (logs 7, 9, 10, 12): nothing
presented changes nothing; another writer sets the port, without effect under `EXCLUSIVE = true`; the
device falls silent; a process ends, which destroys `CACHE` and `READY` and leaves the device (R18), and
another starts. -/
def Obligations.EventsBetweenCommands : Prop :=
  ∀ s : State,
    (s.events = [] → step s = .next s) ∧
    (∀ b rest, s.events = .otherWrite b :: rest →
      (s.params.exclusive = true → step s = .next { s with events := rest }) ∧
      (s.params.exclusive = false → step s = .next { s with events := rest, devPort := b })) ∧
    (∀ q rest, s.events = .deviceSilent q :: rest →
      step s = .next { s with events := rest, devSilent := q }) ∧
    (∀ rest, s.events = .restart none :: rest →
      step s = .next { s with events := rest, cache := none, ready := false, devWritten := false }) ∧
    (∀ port dir rest, s.events = .restart (some (port, dir)) :: rest →
      step s = .next { s with
        events := rest, cache := none, ready := false, devWritten := false,
        devPort := port, devDir := dir })

/-- R16: after reset `READY = 0` and `CACHE` holds no value, whatever parameters, and the device may hold
any two bytes; no command but `INIT` has a meaning there. -/
def Obligations.AfterResetNothingIsKnown : Prop :=
  ∀ (p : Params) (port dir : Byte),
    (State.start p port dir).ready = false ∧ (State.start p port dir).cache = none ∧
    (State.start p port dir).devPort = port ∧ (State.start p port dir).devDir = dir ∧
    (∀ idx, exec (.turnOn idx) (State.start p port dir) = .fault .notReady ∧
      exec (.turnOff idx) (State.start p port dir) = .fault .notReady) ∧
    exec .currentState (State.start p port dir) = .fault .notReady

/-- The invariant holds after reset, for every parameter and every byte of the device, and so at the
reset state of the model, whose two device bytes are the model's choice 0x00 (log 2). -/
def Obligations.InvariantHoldsAfterReset : Prop :=
  (∀ (p : Params) (port dir : Byte), (State.start p port dir).Inv) ∧
  State.reset = State.start Params.baseline 0x00#8 0x00#8 ∧ State.reset.Inv

/-- The spec's own inference in R17, for every step from every state: without other writers a ready
controller's cache is the port and all pins are outputs; `CACHE` holds a value exactly when
`READY = 1`. -/
def Obligations.StepKeepsTheInvariant : Prop :=
  ∀ s t : State, s.Inv → step s = .next t → t.Inv

/-- The invariant along every run of any length, from every state that has it; in particular a run from
reset that ends ready without other writers ends with the cache equal to the port. -/
def Obligations.RunsKeepTheInvariant : Prop :=
  (∀ (n : Nat) (s t : State), s.Inv → Sys2Proof.core.run n s = .next t → t.Inv) ∧
  (∀ (n : Nat) (p : Params) (port dir : Byte) (es : List EnvEvent) (is : List DevInput) (t : State),
    p.exclusive = true →
    Sys2Proof.core.run n { State.start p port dir with events := es, inputs := is } = .next t →
    t.ready = true → t.cache = some t.devPort ∧ t.devDir = 0xFF#8)

/-- 10_state.md R12, R16 and R18 and 70_reset_and_hazards.md R79: how `READY` moves with every command and
its result, and that nothing else but the start of a new process moves it. The event of that start is
log 12. -/
def Obligations.ReadyMovesOnlyByInit : Prop :=
  (∀ (i : Instr) (s t : State) (r : Reply), exec i s = .next t → t.replies = s.replies ++ [r] →
    (i = .init → r = .ok → t.ready = true) ∧
    (i = .init → r = .deviceInitError → t.ready = false) ∧
    (i = .init → r = .deviceWriteError → t.ready = s.ready) ∧
    (i ≠ .init → t.ready = s.ready)) ∧
  (∀ s t : State, step s = .next t → t.ready ≠ s.ready →
    NextCommand s .init ∨ ∃ f rest, s.events = .restart f :: rest ∧ t.ready = false)

/-- 10_state.md section 1 and 20_memory.md section 3: after an `OK` of `INIT`, `TURN_ON` or `TURN_OFF`
the last byte the device saw and accepted is in the cache and in the port; after any other result the
cache is as before, or has no value after `DeviceInitError`. -/
def Obligations.CacheFollowsAcceptedWrites : Prop :=
  ∀ (i : Instr) (s t : State) (r : Reply), exec i s = .next t → t.replies = s.replies ++ [r] →
    (r = .ok → ∃ v, t.bus.getLast? = some (.write v true) ∧ t.cache = some v ∧ t.devPort = v) ∧
    (r = .deviceInitError → t.cache = none) ∧
    (r ≠ .ok → r ≠ .deviceInitError → t.cache = s.cache)

/-- The frame of every command: what only `INIT` changes (10_state.md R12, 41_controller.md R57 to R60), and
which of the model's own fields none of the four changes: the parameters (log 3), the waiting events
(log 8), the silence of the device (log 7), the inputs but for those used (log 4). -/
def Obligations.CommandFrame : Prop :=
  ∀ (i : Instr) (s t : State), exec i s = .next t →
    t.params = s.params ∧ t.events = s.events ∧ t.devSilent = s.devSilent ∧
    t.inputs = s.inputs.drop (t.drawn - s.drawn) ∧
    (i ≠ .init → t.ready = s.ready ∧ t.devDir = s.devDir) ∧
    (i = .currentState → t = { s with replies := t.replies })

/-- The model's own choices, clause by clause: no step changes the parameters (log 3) or takes back what the
device and the host have seen (the transcripts of log 11), and each device operation takes exactly one
input (log 4). -/
def Obligations.HistoryOnlyGrows : Prop :=
  ∀ s t : State, step s = .next t →
    t.params = s.params ∧ s.bus <+: t.bus ∧ s.replies <+: t.replies ∧
    t.drawn + s.bus.length = s.drawn + t.bus.length

/-- 20_memory.md R20, R21, R23: which command issues which device operation. Only `INIT` sets a
direction, always 0xFF; a device is read only in the two variants; `CURRENT_STATE` reaches nothing. -/
def Obligations.WhoReachesTheDevice : Prop :=
  ∀ (i : Instr) (s t : State), exec i s = .next t →
    ∃ new, t.bus = s.bus ++ new ∧
      (∀ m ok, BusEvent.setDir m ok ∈ new → i = .init ∧ m = 0xFF#8) ∧
      (∀ a, BusEvent.read a ∈ new →
        (i = .init ∧ s.params.initResync = true) ∨
        (i ≠ .init ∧ i ≠ .currentState ∧ s.params.rmwSource = .deviceRead)) ∧
      (i = .currentState → new = [])

/-! ## Device operations -/

/-- R22: an accepted write is the whole port at once; a failed one leaves the port as another writer, if
there may be one, left it just before (R27, log 10). Nothing of the block changes. -/
def Obligations.DevWriteIsAllOrNothing : Prop :=
  ∀ (v : Byte) (s : State),
    (devWrite v s).1 = s.input.ok ∧
    (s.input.ok = true → (devWrite v s).2.devPort = v) ∧
    (s.input.ok = false → (devWrite v s).2.devPort = s.input.portSeen s.params.exclusive s.devPort) ∧
    (s.input.ok = false → s.params.exclusive = true → (devWrite v s).2.devPort = s.devPort) ∧
    (devWrite v s).2.devDir = s.devDir ∧ (devWrite v s).2.cache = s.cache ∧
    (devWrite v s).2.ready = s.ready

/-- R21: an accepted direction is stored, a failed one leaves any byte (log 5); the port is not changed by
it (log 16) and is as another writer, if there may be one, left it just before (R27, log 10). -/
def Obligations.DevSetDirStoresTheMask : Prop :=
  ∀ (m : Byte) (s : State),
    (devSetDir m s).1 = s.input.ok ∧
    (s.input.ok = true → (devSetDir m s).2.devDir = m) ∧
    (s.input.ok = false → (devSetDir m s).2.devDir = s.input.byte) ∧
    (devSetDir m s).2.devPort = s.input.portSeen s.params.exclusive s.devPort ∧
    (devSetDir m s).2.cache = s.cache ∧ (devSetDir m s).2.ready = s.ready

/-- R23: a read that answers returns the port once all pins are outputs and this block has written it,
any byte otherwise (log 6), and itself changes no state. The port it meets, returns and leaves is the one
another writer, if there may be one, left just before it (R27, log 10). -/
def Obligations.DevReadReturnsThePort : Prop :=
  ∀ s : State,
    (s.input.ok = false → (devRead s).1 = none) ∧
    (s.input.ok = true → s.devDir = 0xFF#8 → s.devWritten = true →
      (devRead s).1 = some (s.input.portSeen s.params.exclusive s.devPort)) ∧
    (s.input.ok = true → s.devDir ≠ 0xFF#8 ∨ s.devWritten = false →
      (devRead s).1 = some s.input.byte) ∧
    (devRead s).2.devPort = s.input.portSeen s.params.exclusive s.devPort ∧
    (devRead s).2.devDir = s.devDir ∧ (devRead s).2.cache = s.cache ∧
    (devRead s).2.ready = s.ready

/-! ## INIT -/

/-- 41_controller.md R57: the three ends of `INIT` with `INIT_RESYNC = false`, from every state, whole.
`i0` and `i1` are the free inputs of its two device operations; the byte of a failed direction setting is
any byte (log 5); the port of the failing ends is as another writer, if there may be one, left it
(log 10). -/
def Obligations.InitBaseline : Prop :=
  ∀ s : State, s.devSilent = false → s.params.initResync = false →
    let i0 := s.inputAt 0
    let i1 := s.inputAt 1
    let port0 := i0.portSeen s.params.exclusive s.devPort
    let port1 := i1.portSeen s.params.exclusive port0
    let v := s.params.initValue
    (i0.ok = false → exec .init s = .next { s with
      ready := false, cache := none, devDir := i0.byte, devPort := port0,
      inputs := s.inputs.drop 1, drawn := s.drawn + 1,
      bus := s.bus ++ [.setDir 0xFF#8 false], replies := s.replies ++ [.deviceInitError] }) ∧
    (i0.ok = true → i1.ok = false → exec .init s = .next { s with
      devDir := 0xFF#8, devPort := port1,
      inputs := s.inputs.drop 2, drawn := s.drawn + 2,
      bus := s.bus ++ [.setDir 0xFF#8 true, .write v false],
      replies := s.replies ++ [.deviceWriteError] }) ∧
    (i0.ok = true → i1.ok = true → exec .init s = .next { s with
      ready := true, cache := some v, devDir := 0xFF#8, devPort := v, devWritten := true,
      inputs := s.inputs.drop 2, drawn := s.drawn + 2,
      bus := s.bus ++ [.setDir 0xFF#8 true, .write v true], replies := s.replies ++ [.ok] })

/-- 41_controller.md R63: `INIT` with `INIT_RESYNC = true`. The byte read is the port when this block has
written it since reset, else the free byte of the second input (20_memory.md R23, log 6); the direction
after a failed setting is any byte (R21, log 5); another writer may act before each of the three
operations (R27, log 10). -/
def Obligations.InitResync : Prop :=
  ∀ s : State, s.devSilent = false → s.params.initResync = true →
    let i0 := s.inputAt 0
    let i1 := s.inputAt 1
    let i2 := s.inputAt 2
    let port0 := i0.portSeen s.params.exclusive s.devPort
    let port1 := i1.portSeen s.params.exclusive port0
    let port2 := i2.portSeen s.params.exclusive port1
    let v := if s.devWritten then port1 else i1.byte
    (i0.ok = false → exec .init s = .next { s with
      ready := false, cache := none, devDir := i0.byte, devPort := port0,
      inputs := s.inputs.drop 1, drawn := s.drawn + 1,
      bus := s.bus ++ [.setDir 0xFF#8 false], replies := s.replies ++ [.deviceInitError] }) ∧
    (i0.ok = true → i1.ok = false → exec .init s = .next { s with
      ready := false, cache := none, devDir := 0xFF#8, devPort := port1,
      inputs := s.inputs.drop 2, drawn := s.drawn + 2,
      bus := s.bus ++ [.setDir 0xFF#8 true, .read none],
      replies := s.replies ++ [.deviceInitError] }) ∧
    (i0.ok = true → i1.ok = true → i2.ok = false → exec .init s = .next { s with
      devDir := 0xFF#8, devPort := port2,
      inputs := s.inputs.drop 3, drawn := s.drawn + 3,
      bus := s.bus ++ [.setDir 0xFF#8 true, .read (some v), .write v false],
      replies := s.replies ++ [.deviceWriteError] }) ∧
    (i0.ok = true → i1.ok = true → i2.ok = true → exec .init s = .next { s with
      ready := true, cache := some v, devDir := 0xFF#8, devPort := v, devWritten := true,
      inputs := s.inputs.drop 3, drawn := s.drawn + 3,
      bus := s.bus ++ [.setDir 0xFF#8 true, .read (some v), .write v true],
      replies := s.replies ++ [.ok] })

/-! ## TURN_ON and TURN_OFF -/

/-- 41_controller.md R58: every end of `TURN_ON` with `RMW_SOURCE = CACHE`, whole. After a failed write the
port is as another writer, if there may be one, left it (20_memory.md R27, log 10). -/
def Obligations.TurnOnBaseline : Prop :=
  ∀ (idx : Nat) (s : State),
    (s.ready = false → exec (.turnOn idx) s = .fault .notReady) ∧
    (s.ready = true → idx = 0 ∨ 9 ≤ idx →
      exec (.turnOn idx) s = .next { s with replies := s.replies ++ [.invalidRelayIndex] }) ∧
    (∀ cur, s.ready = true → 1 ≤ idx → idx ≤ 8 → s.params.rmwSource = .cache →
      s.cache = some cur → s.devSilent = false →
      let new := cur ||| (1#8 <<< (idx - 1))
      (s.input.ok = true → exec (.turnOn idx) s = .next { s with
        cache := some new, devPort := new, devWritten := true,
        inputs := s.inputs.tail, drawn := s.drawn + 1,
        bus := s.bus ++ [.write new true], replies := s.replies ++ [.ok] }) ∧
      (s.input.ok = false → exec (.turnOn idx) s = .next { s with
        devPort := s.input.portSeen s.params.exclusive s.devPort,
        inputs := s.inputs.tail, drawn := s.drawn + 1,
        bus := s.bus ++ [.write new false], replies := s.replies ++ [.deviceWriteError] }))

/-- 41_controller.md R59: every end of `TURN_OFF` with `RMW_SOURCE = CACHE`, whole. After a failed write the
port is as another writer, if there may be one, left it (20_memory.md R27, log 10). -/
def Obligations.TurnOffBaseline : Prop :=
  ∀ (idx : Nat) (s : State),
    (s.ready = false → exec (.turnOff idx) s = .fault .notReady) ∧
    (s.ready = true → idx = 0 ∨ 9 ≤ idx →
      exec (.turnOff idx) s = .next { s with replies := s.replies ++ [.invalidRelayIndex] }) ∧
    (∀ cur, s.ready = true → 1 ≤ idx → idx ≤ 8 → s.params.rmwSource = .cache →
      s.cache = some cur → s.devSilent = false →
      let new := cur &&& ~~~(1#8 <<< (idx - 1))
      (s.input.ok = true → exec (.turnOff idx) s = .next { s with
        cache := some new, devPort := new, devWritten := true,
        inputs := s.inputs.tail, drawn := s.drawn + 1,
        bus := s.bus ++ [.write new true], replies := s.replies ++ [.ok] }) ∧
      (s.input.ok = false → exec (.turnOff idx) s = .next { s with
        devPort := s.input.portSeen s.params.exclusive s.devPort,
        inputs := s.inputs.tail, drawn := s.drawn + 1,
        bus := s.bus ++ [.write new false], replies := s.replies ++ [.deviceWriteError] }))

/-- 41_controller.md R62: `TURN_ON` and `TURN_OFF` of a valid index with `RMW_SOURCE = DEVICE_READ`. The byte
read is the port or, off the condition of 20_memory.md R23, a free byte (log 6); another writer may act
before the read and between the read and the write (R27, log 10). -/
def Obligations.ReadBeforeWrite : Prop :=
  ∀ (command : Nat → Instr) (mask : Byte → Byte → Byte),
    (command = .turnOn ∧ mask = fun cur bit => cur ||| bit) ∨
      (command = .turnOff ∧ mask = fun cur bit => cur &&& ~~~bit) →
  ∀ (idx : Nat) (s : State),
    s.ready = true → 1 ≤ idx → idx ≤ 8 → s.params.rmwSource = .deviceRead → s.devSilent = false →
    let i0 := s.inputAt 0
    let i1 := s.inputAt 1
    let port0 := i0.portSeen s.params.exclusive s.devPort
    let port1 := i1.portSeen s.params.exclusive port0
    let cur := if s.devDir = 0xFF#8 ∧ s.devWritten = true then port0 else i0.byte
    let new := mask cur (1#8 <<< (idx - 1))
    (i0.ok = false → exec (command idx) s = .next { s with
      devPort := port0, inputs := s.inputs.drop 1, drawn := s.drawn + 1,
      bus := s.bus ++ [.read none], replies := s.replies ++ [.deviceWriteError] }) ∧
    (i0.ok = true → i1.ok = false → exec (command idx) s = .next { s with
      devPort := port1, inputs := s.inputs.drop 2, drawn := s.drawn + 2,
      bus := s.bus ++ [.read (some cur), .write new false],
      replies := s.replies ++ [.deviceWriteError] }) ∧
    (i0.ok = true → i1.ok = true → exec (command idx) s = .next { s with
      cache := some new, devPort := new, devWritten := true,
      inputs := s.inputs.drop 2, drawn := s.drawn + 2,
      bus := s.bus ++ [.read (some cur), .write new true], replies := s.replies ++ [.ok] })

/-- R66: `InvalidRelayIndex` is the result exactly of a ready controller's `TURN_ON` or `TURN_OFF` with
an index outside 1 to 8, whatever the device would have answered, and then nothing changes but the
result given. -/
def Obligations.InvalidIndexIsRejectedFirst : Prop :=
  ∀ (i : Instr) (s t : State), exec i s = .next t →
    (t.replies = s.replies ++ [.invalidRelayIndex] ↔
      ∃ idx, (i = .turnOn idx ∨ i = .turnOff idx) ∧ (idx = 0 ∨ 9 ≤ idx)) ∧
    (t.replies = s.replies ++ [.invalidRelayIndex] →
      t = { s with replies := s.replies ++ [.invalidRelayIndex] })

/-- 60_exceptions.md sections 1 and 4: a `TURN_ON` or `TURN_OFF` that does not return `OK` leaves
`CACHE`, `READY` and `DEV_DIR`, and without other writers `DEV_PORT`, as they were, in every variant. -/
def Obligations.FailedRelayCommandChangesNothing : Prop :=
  ∀ (idx : Nat) (i : Instr) (s t : State), i = .turnOn idx ∨ i = .turnOff idx → exec i s = .next t →
    t.replies ≠ s.replies ++ [.ok] →
    t.cache = s.cache ∧ t.ready = s.ready ∧ t.devDir = s.devDir ∧
    (s.params.exclusive = true → SameArch s t)

/-- A successful `TURN_ON` or `TURN_OFF` without other writers changes one bit of the cache and of the
port, in every variant, from every state with the invariant (95_test_vectors.md section 6). -/
def Obligations.OkRelayCommandChangesOneRelay : Prop :=
  ∀ (idx : Nat) (i : Instr) (on : Bool) (s t : State),
    (i = .turnOn idx ∧ on = true) ∨ (i = .turnOff idx ∧ on = false) →
    s.Inv → s.params.exclusive = true → exec i s = .next t → t.replies = s.replies ++ [.ok] →
    ∃ (p : RelayPos) (c c' : Byte), p.index = idx ∧ s.cache = some c ∧ t.cache = some c' ∧
      relaySel c' p = on ∧ relaySel t.devPort p = on ∧
      ∀ q, q ≠ p → relaySel c' q = relaySel c q ∧ relaySel t.devPort q = relaySel s.devPort q

/-- The spec's own inference in R61: two equal commands in a row, both `OK`, leave the same cache and
port as one, and the device sees two writes of the same byte. -/
def Obligations.RepeatedCommandWritesAgain : Prop :=
  ∀ (idx : Nat) (i : Instr) (s t u : State), i = .turnOn idx ∨ i = .turnOff idx →
    s.params.rmwSource = .cache →
    exec i s = .next t → t.replies = s.replies ++ [.ok] →
    exec i t = .next u → u.replies = t.replies ++ [.ok] →
    u.cache = t.cache ∧ u.devPort = t.devPort ∧
    ∃ v, t.bus = s.bus ++ [.write v true] ∧ u.bus = t.bus ++ [.write v true]

/-- R74: after `DeviceWriteError` the same command presented again computes the same byte from the
unchanged cache and completes, with whichever answer the device gives. -/
def Obligations.RetryWritesTheSameByte : Prop :=
  ∀ (idx : Nat) (i : Instr) (s t : State), i = .turnOn idx ∨ i = .turnOff idx →
    s.params.rmwSource = .cache →
    exec i s = .next t → t.replies = s.replies ++ [.deviceWriteError] →
    ∃ v u, t.bus = s.bus ++ [.write v false] ∧ exec i t = .next u ∧
      u.bus = t.bus ++ [.write v t.input.ok] ∧
      (t.input.ok = true → u.cache = some v ∧ u.devPort = v ∧ u.replies = t.replies ++ [.ok]) ∧
      (t.input.ok = false → u.cache = s.cache ∧ u.replies = t.replies ++ [.deviceWriteError])

/-- The spec's own inference in R85, and its vectors V-T33 and V-T36: after another writer has set the
port, the baseline's `TURN_ON` and `TURN_OFF` compute from the stale cache and overwrite the other
writer's bits; with `RMW_SOURCE = DEVICE_READ`, and no write in between, they keep them. The
other writer's part is log 10. -/
def Obligations.StaleCacheLosesTheOtherWrite : Prop :=
  ∀ (command : Nat → Instr) (mask : Byte → Byte → Byte),
    (command = .turnOn ∧ mask = fun cur bit => cur ||| bit) ∨
      (command = .turnOff ∧ mask = fun cur bit => cur &&& ~~~bit) →
  ∀ (idx : Nat) (b c : Byte) (w : CmdWord) (rest : List EnvEvent) (s : State),
    s.events = .otherWrite b :: .command w :: rest → decode w = command idx →
    s.params.exclusive = false → s.ready = true → s.cache = some c → s.devSilent = false →
    1 ≤ idx → idx ≤ 8 → (s.inputAt 0).ok = true →
    (s.params.rmwSource = .cache →
      ∃ t, Sys2Proof.core.run 2 s = .next t ∧ t.devPort = mask c (1#8 <<< (idx - 1)) ∧
        t.cache = some t.devPort) ∧
    (s.params.rmwSource = .deviceRead → s.devDir = 0xFF#8 → s.devWritten = true →
      (s.inputAt 0).other = none → (s.inputAt 1).ok = true →
      ∃ t, Sys2Proof.core.run 2 s = .next t ∧ t.devPort = mask b (1#8 <<< (idx - 1)) ∧
        t.cache = some t.devPort)

/-! ## CURRENT_STATE -/

/-- R60: the cached byte is the result; nothing else changes and no device operation is issued, in every
variant; not ready, it faults. -/
def Obligations.CurrentStateReturnsTheCache : Prop :=
  ∀ s : State,
    (∀ v, s.ready = true → s.cache = some v →
      exec .currentState s = .next { s with replies := s.replies ++ [.okData v] }) ∧
    (s.ready = false → exec .currentState s = .fault .notReady)

/-! ## Stops -/

/-- R75: not ready, the three commands fault whatever their operand, and a fault is never cleared. -/
def Obligations.NotReadyFaults : Prop :=
  (∀ s : State, s.ready = false →
    (∀ idx, exec (.turnOn idx) s = .fault .notReady ∧ exec (.turnOff idx) s = .fault .notReady) ∧
    exec .currentState s = .fault .notReady) ∧
  (∀ (s : State) (f : Fault) (n : Nat), step s = .fault f → Sys2Proof.core.run (n + 1) s = .fault f)

/-- 00_scope.md section 5 and log 13: a ready controller whose cache holds no value, which no run
reaches, faults where the cache is read, after the test of the index. -/
def Obligations.CacheWithoutValueFaults : Prop :=
  ∀ s : State, s.ready = true → s.cache = none →
    exec .currentState s = .fault .notReady ∧
    ∀ idx, s.params.rmwSource = .cache → 1 ≤ idx → idx ≤ 8 →
      exec (.turnOn idx) s = .fault .notReady ∧ exec (.turnOff idx) s = .fault .notReady

/-- Log 7, the model's choice between the two that 20_memory.md section 3 offers: a command that needs an
answer from a device that gives none is stuck. -/
def Obligations.SilentDeviceBlocks : Prop :=
  ∀ s : State, s.devSilent = true →
    exec .init s = .fault .deviceSilent ∧
    ∀ idx, s.ready = true → 1 ≤ idx → idx ≤ 8 →
      (s.params.rmwSource = .deviceRead ∨ s.cache.isSome = true) →
      exec (.turnOn idx) s = .fault .deviceSilent ∧ exec (.turnOff idx) s = .fault .deviceSilent

/-- When and why a command stops, from every state with the invariant: never refused; `notReady` exactly
when not ready and not `INIT` (60_exceptions.md R72, R75); `deviceSilent` only with a silent device, the
model's choice of log 7 (20_memory.md R34). -/
def Obligations.WhenACommandStops : Prop :=
  ∀ (i : Instr) (s : State),
    (∀ r, exec i s ≠ .refused r) ∧
    (s.Inv → (exec i s = .fault .notReady ↔ s.ready = false ∧ i ≠ .init)) ∧
    (exec i s = .fault .deviceSilent → s.devSilent = true)

/-- Progress: with a device that answers (log 7), `INIT` completes from every state (41_controller.md
section 2), and from a ready state with the invariant every step gives a next state. -/
def Obligations.ReadyControllerNeverStops : Prop :=
  (∀ s : State, s.devSilent = false → ∃ t, exec .init s = .next t) ∧
  (∀ s : State, s.Inv → s.ready = true → s.devSilent = false → ∃ t, step s = .next t)

/-! ## What the baseline does not depend on -/

/-- The baseline's "read" is a read of the cache (90_conflicts.md C9): what the device holds reaches
neither the cache, nor `READY`, nor the bus, nor any result. -/
def Obligations.BaselineNeverLooksAtThePort : Prop :=
  ∀ (i : Instr) (s t : State) (port dir : Byte) (written : Bool),
    s.params.initResync = false → s.params.rmwSource = .cache → exec i s = .next t →
    ∃ t', exec i { s with devPort := port, devDir := dir, devWritten := written } = .next t' ∧
      t'.cache = t.cache ∧ t'.ready = t.ready ∧ t'.bus = t.bus ∧ t'.replies = t.replies
end

