-- ==== Sys2Proof/Laws/State.lean ====
section
/-! SUPPORT. One lemma per field per update of State, each true by rfl, so that no later proof unfolds a
record update. -/

namespace Sys2Proof.Machine

/-! ### State.setReady -/

@[simp] theorem State.setReady_cache (s : State) : s.setReady.cache = s.cache := rfl
@[simp] theorem State.setReady_ready (s : State) : s.setReady.ready = true := rfl
@[simp] theorem State.setReady_devPort (s : State) : s.setReady.devPort = s.devPort := rfl
@[simp] theorem State.setReady_devDir (s : State) : s.setReady.devDir = s.devDir := rfl
@[simp] theorem State.setReady_devWritten (s : State) : s.setReady.devWritten = s.devWritten := rfl
@[simp] theorem State.setReady_devSilent (s : State) : s.setReady.devSilent = s.devSilent := rfl
@[simp] theorem State.setReady_params (s : State) : s.setReady.params = s.params := rfl
@[simp] theorem State.setReady_events (s : State) : s.setReady.events = s.events := rfl
@[simp] theorem State.setReady_inputs (s : State) : s.setReady.inputs = s.inputs := rfl
@[simp] theorem State.setReady_drawn (s : State) : s.setReady.drawn = s.drawn := rfl
@[simp] theorem State.setReady_bus (s : State) : s.setReady.bus = s.bus := rfl
@[simp] theorem State.setReady_replies (s : State) : s.setReady.replies = s.replies := rfl

/-! ### State.dropReady -/

@[simp] theorem State.dropReady_cache (s : State) : s.dropReady.cache = none := rfl
@[simp] theorem State.dropReady_ready (s : State) : s.dropReady.ready = false := rfl
@[simp] theorem State.dropReady_devPort (s : State) : s.dropReady.devPort = s.devPort := rfl
@[simp] theorem State.dropReady_devDir (s : State) : s.dropReady.devDir = s.devDir := rfl
@[simp] theorem State.dropReady_devWritten (s : State) : s.dropReady.devWritten = s.devWritten := rfl
@[simp] theorem State.dropReady_devSilent (s : State) : s.dropReady.devSilent = s.devSilent := rfl
@[simp] theorem State.dropReady_params (s : State) : s.dropReady.params = s.params := rfl
@[simp] theorem State.dropReady_events (s : State) : s.dropReady.events = s.events := rfl
@[simp] theorem State.dropReady_inputs (s : State) : s.dropReady.inputs = s.inputs := rfl
@[simp] theorem State.dropReady_drawn (s : State) : s.dropReady.drawn = s.drawn := rfl
@[simp] theorem State.dropReady_bus (s : State) : s.dropReady.bus = s.bus := rfl
@[simp] theorem State.dropReady_replies (s : State) : s.dropReady.replies = s.replies := rfl

/-! ### State.beginDevOp -/

@[simp] theorem State.beginDevOp_cache (s : State) : s.beginDevOp.cache = s.cache := rfl
@[simp] theorem State.beginDevOp_ready (s : State) : s.beginDevOp.ready = s.ready := rfl
@[simp] theorem State.beginDevOp_devPort (s : State) : s.beginDevOp.devPort = s.input.portSeen s.params.exclusive s.devPort := rfl
@[simp] theorem State.beginDevOp_devDir (s : State) : s.beginDevOp.devDir = s.devDir := rfl
@[simp] theorem State.beginDevOp_devWritten (s : State) : s.beginDevOp.devWritten = s.devWritten := rfl
@[simp] theorem State.beginDevOp_devSilent (s : State) : s.beginDevOp.devSilent = s.devSilent := rfl
@[simp] theorem State.beginDevOp_params (s : State) : s.beginDevOp.params = s.params := rfl
@[simp] theorem State.beginDevOp_events (s : State) : s.beginDevOp.events = s.events := rfl
@[simp] theorem State.beginDevOp_inputs (s : State) : s.beginDevOp.inputs = s.inputs.tail := rfl
@[simp] theorem State.beginDevOp_drawn (s : State) : s.beginDevOp.drawn = s.drawn + 1 := rfl
@[simp] theorem State.beginDevOp_bus (s : State) : s.beginDevOp.bus = s.bus := rfl
@[simp] theorem State.beginDevOp_replies (s : State) : s.beginDevOp.replies = s.replies := rfl

/-! ### State.logBus -/

@[simp] theorem State.logBus_cache (s : State) (e : BusEvent) : (s.logBus e).cache = s.cache := rfl
@[simp] theorem State.logBus_ready (s : State) (e : BusEvent) : (s.logBus e).ready = s.ready := rfl
@[simp] theorem State.logBus_devPort (s : State) (e : BusEvent) : (s.logBus e).devPort = s.devPort := rfl
@[simp] theorem State.logBus_devDir (s : State) (e : BusEvent) : (s.logBus e).devDir = s.devDir := rfl
@[simp] theorem State.logBus_devWritten (s : State) (e : BusEvent) : (s.logBus e).devWritten = s.devWritten := rfl
@[simp] theorem State.logBus_devSilent (s : State) (e : BusEvent) : (s.logBus e).devSilent = s.devSilent := rfl
@[simp] theorem State.logBus_params (s : State) (e : BusEvent) : (s.logBus e).params = s.params := rfl
@[simp] theorem State.logBus_events (s : State) (e : BusEvent) : (s.logBus e).events = s.events := rfl
@[simp] theorem State.logBus_inputs (s : State) (e : BusEvent) : (s.logBus e).inputs = s.inputs := rfl
@[simp] theorem State.logBus_drawn (s : State) (e : BusEvent) : (s.logBus e).drawn = s.drawn := rfl
@[simp] theorem State.logBus_bus (s : State) (e : BusEvent) : (s.logBus e).bus = s.bus ++ [e] := rfl
@[simp] theorem State.logBus_replies (s : State) (e : BusEvent) : (s.logBus e).replies = s.replies := rfl

/-! ### State.setDir -/

@[simp] theorem State.setDir_cache (s : State) (m : Byte) : (s.setDir m).cache = s.cache := rfl
@[simp] theorem State.setDir_ready (s : State) (m : Byte) : (s.setDir m).ready = s.ready := rfl
@[simp] theorem State.setDir_devPort (s : State) (m : Byte) : (s.setDir m).devPort = s.devPort := rfl
@[simp] theorem State.setDir_devDir (s : State) (m : Byte) : (s.setDir m).devDir = m := rfl
@[simp] theorem State.setDir_devWritten (s : State) (m : Byte) : (s.setDir m).devWritten = s.devWritten := rfl
@[simp] theorem State.setDir_devSilent (s : State) (m : Byte) : (s.setDir m).devSilent = s.devSilent := rfl
@[simp] theorem State.setDir_params (s : State) (m : Byte) : (s.setDir m).params = s.params := rfl
@[simp] theorem State.setDir_events (s : State) (m : Byte) : (s.setDir m).events = s.events := rfl
@[simp] theorem State.setDir_inputs (s : State) (m : Byte) : (s.setDir m).inputs = s.inputs := rfl
@[simp] theorem State.setDir_drawn (s : State) (m : Byte) : (s.setDir m).drawn = s.drawn := rfl
@[simp] theorem State.setDir_bus (s : State) (m : Byte) : (s.setDir m).bus = s.bus := rfl
@[simp] theorem State.setDir_replies (s : State) (m : Byte) : (s.setDir m).replies = s.replies := rfl

/-! ### State.acceptWrite -/

@[simp] theorem State.acceptWrite_cache (s : State) (v : Byte) : (s.acceptWrite v).cache = s.cache := rfl
@[simp] theorem State.acceptWrite_ready (s : State) (v : Byte) : (s.acceptWrite v).ready = s.ready := rfl
@[simp] theorem State.acceptWrite_devPort (s : State) (v : Byte) : (s.acceptWrite v).devPort = v := rfl
@[simp] theorem State.acceptWrite_devDir (s : State) (v : Byte) : (s.acceptWrite v).devDir = s.devDir := rfl
@[simp] theorem State.acceptWrite_devWritten (s : State) (v : Byte) : (s.acceptWrite v).devWritten = true := rfl
@[simp] theorem State.acceptWrite_devSilent (s : State) (v : Byte) : (s.acceptWrite v).devSilent = s.devSilent := rfl
@[simp] theorem State.acceptWrite_params (s : State) (v : Byte) : (s.acceptWrite v).params = s.params := rfl
@[simp] theorem State.acceptWrite_events (s : State) (v : Byte) : (s.acceptWrite v).events = s.events := rfl
@[simp] theorem State.acceptWrite_inputs (s : State) (v : Byte) : (s.acceptWrite v).inputs = s.inputs := rfl
@[simp] theorem State.acceptWrite_drawn (s : State) (v : Byte) : (s.acceptWrite v).drawn = s.drawn := rfl
@[simp] theorem State.acceptWrite_bus (s : State) (v : Byte) : (s.acceptWrite v).bus = s.bus := rfl
@[simp] theorem State.acceptWrite_replies (s : State) (v : Byte) : (s.acceptWrite v).replies = s.replies := rfl

/-! ### State.loadCache -/

@[simp] theorem State.loadCache_cache (s : State) (v : Byte) : (s.loadCache v).cache = some v := rfl
@[simp] theorem State.loadCache_ready (s : State) (v : Byte) : (s.loadCache v).ready = s.ready := rfl
@[simp] theorem State.loadCache_devPort (s : State) (v : Byte) : (s.loadCache v).devPort = s.devPort := rfl
@[simp] theorem State.loadCache_devDir (s : State) (v : Byte) : (s.loadCache v).devDir = s.devDir := rfl
@[simp] theorem State.loadCache_devWritten (s : State) (v : Byte) : (s.loadCache v).devWritten = s.devWritten := rfl
@[simp] theorem State.loadCache_devSilent (s : State) (v : Byte) : (s.loadCache v).devSilent = s.devSilent := rfl
@[simp] theorem State.loadCache_params (s : State) (v : Byte) : (s.loadCache v).params = s.params := rfl
@[simp] theorem State.loadCache_events (s : State) (v : Byte) : (s.loadCache v).events = s.events := rfl
@[simp] theorem State.loadCache_inputs (s : State) (v : Byte) : (s.loadCache v).inputs = s.inputs := rfl
@[simp] theorem State.loadCache_drawn (s : State) (v : Byte) : (s.loadCache v).drawn = s.drawn := rfl
@[simp] theorem State.loadCache_bus (s : State) (v : Byte) : (s.loadCache v).bus = s.bus := rfl
@[simp] theorem State.loadCache_replies (s : State) (v : Byte) : (s.loadCache v).replies = s.replies := rfl

/-! ### State.pushReply -/

@[simp] theorem State.pushReply_cache (s : State) (r : Reply) : (s.pushReply r).cache = s.cache := rfl
@[simp] theorem State.pushReply_ready (s : State) (r : Reply) : (s.pushReply r).ready = s.ready := rfl
@[simp] theorem State.pushReply_devPort (s : State) (r : Reply) : (s.pushReply r).devPort = s.devPort := rfl
@[simp] theorem State.pushReply_devDir (s : State) (r : Reply) : (s.pushReply r).devDir = s.devDir := rfl
@[simp] theorem State.pushReply_devWritten (s : State) (r : Reply) : (s.pushReply r).devWritten = s.devWritten := rfl
@[simp] theorem State.pushReply_devSilent (s : State) (r : Reply) : (s.pushReply r).devSilent = s.devSilent := rfl
@[simp] theorem State.pushReply_params (s : State) (r : Reply) : (s.pushReply r).params = s.params := rfl
@[simp] theorem State.pushReply_events (s : State) (r : Reply) : (s.pushReply r).events = s.events := rfl
@[simp] theorem State.pushReply_inputs (s : State) (r : Reply) : (s.pushReply r).inputs = s.inputs := rfl
@[simp] theorem State.pushReply_drawn (s : State) (r : Reply) : (s.pushReply r).drawn = s.drawn := rfl
@[simp] theorem State.pushReply_bus (s : State) (r : Reply) : (s.pushReply r).bus = s.bus := rfl
@[simp] theorem State.pushReply_replies (s : State) (r : Reply) : (s.pushReply r).replies = s.replies ++ [r] := rfl

/-! ### setSilent -/

@[simp] theorem setSilent_cache (s : State) (q : Bool) : (setSilent q s).cache = s.cache := rfl
@[simp] theorem setSilent_ready (s : State) (q : Bool) : (setSilent q s).ready = s.ready := rfl
@[simp] theorem setSilent_devPort (s : State) (q : Bool) : (setSilent q s).devPort = s.devPort := rfl
@[simp] theorem setSilent_devDir (s : State) (q : Bool) : (setSilent q s).devDir = s.devDir := rfl
@[simp] theorem setSilent_devWritten (s : State) (q : Bool) : (setSilent q s).devWritten = s.devWritten := rfl
@[simp] theorem setSilent_devSilent (s : State) (q : Bool) : (setSilent q s).devSilent = q := rfl
@[simp] theorem setSilent_params (s : State) (q : Bool) : (setSilent q s).params = s.params := rfl
@[simp] theorem setSilent_events (s : State) (q : Bool) : (setSilent q s).events = s.events := rfl
@[simp] theorem setSilent_inputs (s : State) (q : Bool) : (setSilent q s).inputs = s.inputs := rfl
@[simp] theorem setSilent_drawn (s : State) (q : Bool) : (setSilent q s).drawn = s.drawn := rfl
@[simp] theorem setSilent_bus (s : State) (q : Bool) : (setSilent q s).bus = s.bus := rfl
@[simp] theorem setSilent_replies (s : State) (q : Bool) : (setSilent q s).replies = s.replies := rfl

/-! ### restart -/

@[simp] theorem restart_cache (s : State) (w : Option (Byte × Byte)) : (restart w s).cache = none := rfl
@[simp] theorem restart_ready (s : State) (w : Option (Byte × Byte)) : (restart w s).ready = false := rfl
@[simp] theorem restart_devPort (s : State) (w : Option (Byte × Byte)) : (restart w s).devPort = (w.map Prod.fst).getD s.devPort := rfl
@[simp] theorem restart_devDir (s : State) (w : Option (Byte × Byte)) : (restart w s).devDir = (w.map Prod.snd).getD s.devDir := rfl
@[simp] theorem restart_devWritten (s : State) (w : Option (Byte × Byte)) : (restart w s).devWritten = false := rfl
@[simp] theorem restart_devSilent (s : State) (w : Option (Byte × Byte)) : (restart w s).devSilent = s.devSilent := rfl
@[simp] theorem restart_params (s : State) (w : Option (Byte × Byte)) : (restart w s).params = s.params := rfl
@[simp] theorem restart_events (s : State) (w : Option (Byte × Byte)) : (restart w s).events = s.events := rfl
@[simp] theorem restart_inputs (s : State) (w : Option (Byte × Byte)) : (restart w s).inputs = s.inputs := rfl
@[simp] theorem restart_drawn (s : State) (w : Option (Byte × Byte)) : (restart w s).drawn = s.drawn := rfl
@[simp] theorem restart_bus (s : State) (w : Option (Byte × Byte)) : (restart w s).bus = s.bus := rfl
@[simp] theorem restart_replies (s : State) (w : Option (Byte × Byte)) : (restart w s).replies = s.replies := rfl

end Sys2Proof.Machine
end

