-- ==== Sys2Proof/Laws/Ops.lean ====
section
/-! SUPPORT. For each shared operation, what it can do, said once. -/

namespace Sys2Proof.Machine

/-! ## Inputs -/

@[simp] theorem DevInput.portSeen_exclusive (i : DevInput) (port : Byte) :
    i.portSeen true port = port := rfl

theorem State.input_eq (s : State) : s.input = s.inputAt 0 := rfl

@[simp] theorem State.inputAt_beginDevOp (s : State) (k : Nat) :
    s.beginDevOp.inputAt k = s.inputAt (k + 1) := by
  simp [State.inputAt, Nat.add_assoc, Nat.add_comm 1 k]

/-- Inputs depend only on the placed ones and the counter. -/
theorem State.inputAt_congr {s t : State} (hi : t.inputs = s.inputs) (hd : t.drawn = s.drawn) (k : Nat) :
    t.inputAt k = s.inputAt k := by
  simp [State.inputAt, hi, hd]

@[simp] theorem State.inputAt_logBus (s : State) (e : BusEvent) (k : Nat) :
    (s.logBus e).inputAt k = s.inputAt k := rfl

@[simp] theorem State.inputAt_setDir (s : State) (m : Byte) (k : Nat) :
    (s.setDir m).inputAt k = s.inputAt k := rfl

@[simp] theorem State.inputAt_pushReply (s : State) (r : Reply) (k : Nat) :
    (s.pushReply r).inputAt k = s.inputAt k := rfl

/-! ## Device operations -/

@[simp] theorem devSetDir_fst (m : Byte) (s : State) : (devSetDir m s).1 = s.input.ok := rfl

theorem devSetDir_snd (m : Byte) (s : State) :
    (devSetDir m s).2 = (s.beginDevOp.setDir (if s.input.ok then m else s.input.byte)).logBus
      (.setDir m s.input.ok) := rfl

@[simp] theorem devWrite_fst (v : Byte) (s : State) : (devWrite v s).1 = s.input.ok := rfl

theorem devWrite_ok {s : State} (v : Byte) (h : s.input.ok = true) :
    devWrite v s = (true, (s.beginDevOp.acceptWrite v).logBus (.write v true)) := by
  simp [devWrite, h]

theorem devWrite_fail {s : State} (v : Byte) (h : s.input.ok = false) :
    devWrite v s = (false, s.beginDevOp.logBus (.write v false)) := by
  simp [devWrite, h]

theorem devRead_ok {s : State} (h : s.input.ok = true) :
    devRead s = (some (readByte s), s.beginDevOp.logBus (.read (some (readByte s)))) := by
  simp [devRead, readAnswer, h]

theorem devRead_fail {s : State} (h : s.input.ok = false) :
    devRead s = (none, s.beginDevOp.logBus (.read none)) := by
  simp [devRead, readAnswer, h]

/-- With all pins outputs and the port written, a read returns the port it finds. -/
theorem readByte_of_written {s : State} (hd : s.devDir = 0xFF#8) (hw : s.devWritten = true) :
    readByte s = s.input.portSeen s.params.exclusive s.devPort := by
  simp [readByte, hd, hw]

/-! ## Tests and delivery -/

@[simp] theorem deliver_eq_next {run : Reply × State} {t : State} :
    deliver run = .next t ↔ run.2.pushReply run.1 = t := by
  simp [deliver]

@[simp] theorem deliver_ne_fault {run : Reply × State} {f : Fault} : deliver run ≠ .fault f := by
  simp [deliver]

@[simp] theorem ifReady_eq_next {s t : State} {k : Outcome} :
    ifReady s k = .next t ↔ s.ready = true ∧ k = .next t := by
  cases h : s.ready <;> simp [ifReady, h]

@[simp] theorem ifReady_eq_fault {s : State} {k : Outcome} {f : Fault} :
    ifReady s k = .fault f ↔ (s.ready = false ∧ f = .notReady) ∨ (s.ready = true ∧ k = .fault f) := by
  cases h : s.ready <;> simp [ifReady, h, eq_comm]

@[simp] theorem ifAnswering_eq_next {s t : State} {k : Outcome} :
    ifAnswering s k = .next t ↔ s.devSilent = false ∧ k = .next t := by
  cases h : s.devSilent <;> simp [ifAnswering, h]

@[simp] theorem ifAnswering_eq_fault {s : State} {k : Outcome} {f : Fault} :
    ifAnswering s k = .fault f ↔
      (s.devSilent = true ∧ f = .deviceSilent) ∨ (s.devSilent = false ∧ k = .fault f) := by
  cases h : s.devSilent <;> simp [ifAnswering, h, eq_comm]

@[simp] theorem readCache_eq_next {s t : State} {k : Byte → Outcome} :
    readCache s k = .next t ↔ ∃ v, s.cache = some v ∧ k v = .next t := by
  cases h : s.cache <;> simp [readCache, h]

@[simp] theorem readCache_eq_fault {s : State} {k : Byte → Outcome} {f : Fault} :
    readCache s k = .fault f ↔
      (s.cache = none ∧ f = .notReady) ∨ ∃ v, s.cache = some v ∧ k v = .fault f := by
  cases h : s.cache <;> simp [readCache, h, eq_comm]

/-! ## Events -/

theorem takeEvent_nil {s : State} (h : s.events = []) : takeEvent s = none := by
  simp [takeEvent, h]

theorem takeEvent_cons {s : State} {e : EnvEvent} {rest : List EnvEvent} (h : s.events = e :: rest) :
    takeEvent s = some (e, { s with events := rest }) := by
  simp [takeEvent, h]

/-- Another writer changes at most the port, and nothing under `EXCLUSIVE = true`. -/
theorem otherWrite_cases (b : Byte) (s : State) :
    (s.params.exclusive = true ∧ otherWrite b s = s) ∨
    (s.params.exclusive = false ∧ otherWrite b s = { s with devPort := b }) := by
  cases h : s.params.exclusive <;> simp [otherWrite, h]

end Sys2Proof.Machine
end

