-- ==== Sys2Proof/Laws/RelayBank.lean ====
section
/-! SUPPORT. What `relayPos?` answers, and when two port bytes are equal. What each RelayBank
function does to each bit stands with the functions, since R52 has the model prove it. -/

namespace Sys2Proof.Machine

theorem relayPos?_eq_some {idx : Nat} {p : RelayPos} : relayPos? idx = some p ↔ idx = p.index := by
  unfold relayPos? RelayPos.index
  constructor
  · intro h
    split at h
    · obtain rfl := Option.some.inj h
      simp only
      omega
    · cases h
  · intro h
    have hp := p.isLt
    rw [dif_pos (by omega)]
    congr 1
    ext
    simp [h]

theorem relayPos?_eq_none {idx : Nat} : relayPos? idx = none ↔ ¬ (1 ≤ idx ∧ idx ≤ 8) := by
  unfold relayPos?
  split <;> simp_all

theorem relayPos?_of_valid {idx : Nat} (h1 : 1 ≤ idx) (h8 : idx ≤ 8) :
    ∃ p, relayPos? idx = some p ∧ p.val = idx - 1 :=
  ⟨⟨idx - 1, by omega⟩, by simp [relayPos?, h1, h8], rfl⟩

theorem relayPos?_of_invalid {idx : Nat} (h : idx = 0 ∨ 9 ≤ idx) : relayPos? idx = none :=
  relayPos?_eq_none.2 (by omega)

/-- Two port bytes with the same eight relays are equal. -/
theorem byte_ext {a b : Byte} (h : ∀ p, relaySel a p = relaySel b p) : a = b :=
  BitVec.eq_of_getLsbD_eq fun i hi => h ⟨i, hi⟩

end Sys2Proof.Machine
end

