-- ==== Sys2Proof/Laws/Controller.lean ====
section
/-! SUPPORT. What a command and a step can do, said once as inversion lemmas: the proofs cite these
and unfold neither `exec` nor `step`. -/

namespace Sys2Proof.Machine

/-! ## The ends of the commands -/

theorem writeBack_ok {s : State} (new : Byte) (h : s.input.ok = true) :
    writeBack new s =
      (.ok, ((s.beginDevOp.acceptWrite new).logBus (.write new true)).loadCache new) := by
  simp [writeBack, devWrite_ok _ h]

theorem writeBack_fail {s : State} (new : Byte) (h : s.input.ok = false) :
    writeBack new s = (.deviceWriteError, s.beginDevOp.logBus (.write new false)) := by
  simp [writeBack, devWrite_fail _ h]

theorem initStore_ok {s : State} (v : Byte) (h : s.input.ok = true) :
    initStore v s =
      (.ok, (((s.beginDevOp.acceptWrite v).logBus (.write v true)).loadCache v).setReady) := by
  simp [initStore, devWrite_ok _ h]

theorem initStore_fail {s : State} (v : Byte) (h : s.input.ok = false) :
    initStore v s = (.deviceWriteError, s.beginDevOp.logBus (.write v false)) := by
  simp [initStore, devWrite_fail _ h]

/-- The state of `INIT` after a direction setting that answered ok. -/
def directed (s : State) : State := (s.beginDevOp.setDir 0xFF#8).logBus (.setDir 0xFF#8 true)

/-- The state of `INIT` after a direction setting that failed. -/
def undirected (s : State) : State :=
  ((s.beginDevOp.setDir s.input.byte).logBus (.setDir 0xFF#8 false)).dropReady

theorem initRun_undirected {s : State} (h : s.input.ok = false) :
    initRun s = (.deviceInitError, undirected s) := by
  simp [initRun, devSetDir_snd, undirected, h]

theorem initRun_constant {s : State} (h : s.input.ok = true) (hr : s.params.initResync = false) :
    initRun s = initStore s.params.initValue (directed s) := by
  simp [initRun, initialByte, devSetDir_snd, directed, h, hr]

theorem initRun_read_ok {s : State} (h : s.input.ok = true) (hr : s.params.initResync = true)
    (hi : (directed s).input.ok = true) :
    initRun s = initStore (readByte (directed s))
      ((directed s).beginDevOp.logBus (.read (some (readByte (directed s))))) := by
  have hd : (devSetDir 0xFF#8 s).2 = directed s := by simp [devSetDir_snd, directed, h]
  have hp : (directed s).params.initResync = true := by simp [directed, hr]
  simp [initRun, h, hd, initialByte, hp, devRead_ok hi]

theorem initRun_read_fail {s : State} (h : s.input.ok = true) (hr : s.params.initResync = true)
    (hi : (directed s).input.ok = false) :
    initRun s = (.deviceInitError, ((directed s).beginDevOp.logBus (.read none)).dropReady) := by
  have hd : (devSetDir 0xFF#8 s).2 = directed s := by simp [devSetDir_snd, directed, h]
  have hp : (directed s).params.initResync = true := by simp [directed, hr]
  simp [initRun, h, hd, initialByte, hp, devRead_fail hi]

/-! ## The commands -/

/-- Everything a store of a byte by `INIT` can do. -/
theorem initStore_cases (v : Byte) (s : State) :
    (s.input.ok = true ∧ initStore v s =
      (.ok, (((s.beginDevOp.acceptWrite v).logBus (.write v true)).loadCache v).setReady)) ∨
    (s.input.ok = false ∧ initStore v s = (.deviceWriteError, s.beginDevOp.logBus (.write v false))) := by
  cases h : s.input.ok
  · exact .inr ⟨rfl, initStore_fail v h⟩
  · exact .inl ⟨rfl, initStore_ok v h⟩

/-- Everything the end of `TURN_ON` or `TURN_OFF` can do. -/
theorem writeBack_cases (new : Byte) (s : State) :
    (s.input.ok = true ∧ writeBack new s =
      (.ok, ((s.beginDevOp.acceptWrite new).logBus (.write new true)).loadCache new)) ∨
    (s.input.ok = false ∧ writeBack new s =
      (.deviceWriteError, s.beginDevOp.logBus (.write new false))) := by
  cases h : s.input.ok
  · exact .inr ⟨rfl, writeBack_fail new h⟩
  · exact .inl ⟨rfl, writeBack_ok new h⟩

/-- Everything `INIT` can do. -/
theorem initRun_cases (s : State) :
    (s.input.ok = false ∧ initRun s = (.deviceInitError, undirected s)) ∨
    (s.input.ok = true ∧ s.params.initResync = false ∧
      initRun s = initStore s.params.initValue (directed s)) ∨
    (s.input.ok = true ∧ s.params.initResync = true ∧ (directed s).input.ok = true ∧
      initRun s = initStore (readByte (directed s))
        ((directed s).beginDevOp.logBus (.read (some (readByte (directed s)))))) ∨
    (s.input.ok = true ∧ s.params.initResync = true ∧ (directed s).input.ok = false ∧
      initRun s = (.deviceInitError, ((directed s).beginDevOp.logBus (.read none)).dropReady)) := by
  cases h : s.input.ok
  · exact .inl ⟨rfl, initRun_undirected h⟩
  · cases hr : s.params.initResync
    · exact .inr (.inl ⟨rfl, rfl, initRun_constant h hr⟩)
    · cases hi : (directed s).input.ok
      · exact .inr (.inr (.inr ⟨rfl, rfl, rfl, initRun_read_fail h hr hi⟩))
      · exact .inr (.inr (.inl ⟨rfl, rfl, rfl, initRun_read_ok h hr hi⟩))

/-- `INIT` stops only when the device answers nothing. -/
theorem execInit_eq_next {s t : State} :
    execInit s = .next t ↔ s.devSilent = false ∧ (initRun s).2.pushReply (initRun s).1 = t := by
  simp [execInit]

theorem execCurrentState_eq_next {s t : State} :
    execCurrentState s = .next t ↔
      s.ready = true ∧ ∃ v, s.cache = some v ∧ s.pushReply (.okData v) = t := by
  simp [execCurrentState]

/-- Everything `TURN_ON` and `TURN_OFF` can do when they reach a next state: reject the index; write the
byte computed from the cache; write the byte computed from a device read; end with a failed read. -/
theorem relayCommand_cases {apply : Byte → RelayPos → Byte} {idx : Nat} {s t : State}
    (h : relayCommand apply idx s = .next t) :
    s.ready = true ∧
    ((relayPos? idx = none ∧ t = s.pushReply .invalidRelayIndex) ∨
     (∃ p cur, relayPos? idx = some p ∧ s.params.rmwSource = .cache ∧ s.cache = some cur ∧
        s.devSilent = false ∧
        t = (writeBack (apply cur p) s).2.pushReply (writeBack (apply cur p) s).1) ∨
     (∃ p, relayPos? idx = some p ∧ s.params.rmwSource = .deviceRead ∧ s.devSilent = false ∧
        s.input.ok = true ∧
        t = (writeBack (apply (readByte s) p) (s.beginDevOp.logBus (.read (some (readByte s))))).2.pushReply
          (writeBack (apply (readByte s) p) (s.beginDevOp.logBus (.read (some (readByte s))))).1) ∨
     (∃ p, relayPos? idx = some p ∧ s.params.rmwSource = .deviceRead ∧ s.devSilent = false ∧
        s.input.ok = false ∧
        t = (s.beginDevOp.logBus (.read none)).pushReply .deviceWriteError)) := by
  obtain ⟨hr, h⟩ := ifReady_eq_next.1 h
  refine ⟨hr, ?_⟩
  cases hp : relayPos? idx with
  | none =>
    rw [hp] at h
    exact .inl ⟨rfl, (deliver_eq_next.1 h).symm⟩
  | some p =>
    refine .inr ?_
    cases hm : s.params.rmwSource with
    | cache =>
      simp only [hp, readModifyWrite, hm, readCache_eq_next, ifAnswering_eq_next, deliver_eq_next] at h
      obtain ⟨cur, hc, hs, ht⟩ := h
      exact .inl ⟨p, cur, rfl, rfl, hc, hs, ht.symm⟩
    | deviceRead =>
      simp only [hp, readModifyWrite, hm, ifAnswering_eq_next, deliver_eq_next, readThenWrite] at h
      obtain ⟨hs, ht⟩ := h
      cases hi : s.input.ok
      · rw [devRead_fail hi] at ht
        exact .inr (.inr ⟨p, rfl, rfl, hs, rfl, ht.symm⟩)
      · rw [devRead_ok hi] at ht
        exact .inr (.inl ⟨p, rfl, rfl, hs, rfl, ht.symm⟩)

/-! ## All ends of a command in one relation -/

/-- The two sources of the byte `INIT` writes, with the state in which it writes it. -/
inductive InitialByte (s : State) : Byte → State → Prop where
  | constant (hp : s.params.initResync = false) : InitialByte s s.params.initValue (directed s)
  | resync (hp : s.params.initResync = true) (hi : (directed s).input.ok = true) :
      InitialByte s (readByte (directed s))
        ((directed s).beginDevOp.logBus (.read (some (readByte (directed s)))))

/-- The two sources of the current byte of `TURN_ON` and `TURN_OFF`, with the state in which the new byte
is written. -/
inductive CurrentByte (s : State) : Byte → State → Prop where
  | cached {cur : Byte} (hm : s.params.rmwSource = .cache) (hc : s.cache = some cur) :
      CurrentByte s cur s
  | read (hm : s.params.rmwSource = .deviceRead) (hi : s.input.ok = true) :
      CurrentByte s (readByte s) (s.beginDevOp.logBus (.read (some (readByte s))))

/-- The two commands with an index, and the RelayBank function of each. -/
inductive RelayInstr : Instr → Nat → (Byte → RelayPos → Byte) → Prop where
  | on (idx : Nat) : RelayInstr (.turnOn idx) idx applyOn
  | off (idx : Nat) : RelayInstr (.turnOff idx) idx applyOff

/-- The nine ends of a command that completes: the instruction and the state it leaves. -/
inductive Ends (s : State) : Instr → State → Prop where
  | initUndirected (hs : s.devSilent = false) (ho : s.input.ok = false) :
      Ends s .init ((undirected s).pushReply .deviceInitError)
  | initUnread (hs : s.devSilent = false) (ho : s.input.ok = true)
      (hp : s.params.initResync = true) (hi : (directed s).input.ok = false) :
      Ends s .init (((directed s).beginDevOp.logBus (.read none)).dropReady.pushReply .deviceInitError)
  | initUnwritten {v : Byte} {s1 : State} (hs : s.devSilent = false) (ho : s.input.ok = true)
      (hv : InitialByte s v s1) (hw : s1.input.ok = false) :
      Ends s .init ((s1.beginDevOp.logBus (.write v false)).pushReply .deviceWriteError)
  | initOk {v : Byte} {s1 : State} (hs : s.devSilent = false) (ho : s.input.ok = true)
      (hv : InitialByte s v s1) (hw : s1.input.ok = true) :
      Ends s .init
        ((((s1.beginDevOp.acceptWrite v).logBus (.write v true)).loadCache v).setReady.pushReply .ok)
  | currentState {v : Byte} (hr : s.ready = true) (hc : s.cache = some v) :
      Ends s .currentState (s.pushReply (.okData v))
  | invalidIndex {i : Instr} {idx : Nat} {f : Byte → RelayPos → Byte} (hi : RelayInstr i idx f)
      (hr : s.ready = true) (hp : relayPos? idx = none) : Ends s i (s.pushReply .invalidRelayIndex)
  | relayUnread {i : Instr} {idx : Nat} {f : Byte → RelayPos → Byte} {p : RelayPos}
      (hi : RelayInstr i idx f) (hr : s.ready = true) (hs : s.devSilent = false)
      (hp : relayPos? idx = some p) (hm : s.params.rmwSource = .deviceRead)
      (ho : s.input.ok = false) :
      Ends s i ((s.beginDevOp.logBus (.read none)).pushReply .deviceWriteError)
  | relayUnwritten {i : Instr} {idx : Nat} {f : Byte → RelayPos → Byte} {p : RelayPos} {cur : Byte}
      {s1 : State} (hi : RelayInstr i idx f) (hr : s.ready = true) (hs : s.devSilent = false)
      (hp : relayPos? idx = some p) (hc : CurrentByte s cur s1) (hw : s1.input.ok = false) :
      Ends s i ((s1.beginDevOp.logBus (.write (f cur p) false)).pushReply .deviceWriteError)
  | relayOk {i : Instr} {idx : Nat} {f : Byte → RelayPos → Byte} {p : RelayPos} {cur : Byte}
      {s1 : State} (hi : RelayInstr i idx f) (hr : s.ready = true) (hs : s.devSilent = false)
      (hp : relayPos? idx = some p) (hc : CurrentByte s cur s1) (hw : s1.input.ok = true) :
      Ends s i ((((s1.beginDevOp.acceptWrite (f cur p)).logBus (.write (f cur p) true)).loadCache
        (f cur p)).pushReply .ok)

theorem execInit_ends {s t : State} (h : execInit s = .next t) : Ends s .init t := by
  obtain ⟨hs, rfl⟩ := execInit_eq_next.1 h
  have store : ∀ v s1, s.input.ok = true → InitialByte s v s1 →
      Ends s .init ((initStore v s1).2.pushReply (initStore v s1).1) := by
    intro v s1 ho hv
    rcases initStore_cases v s1 with ⟨hw, e⟩ | ⟨hw, e⟩ <;> rw [e]
    · exact .initOk hs ho hv hw
    · exact .initUnwritten hs ho hv hw
  rcases initRun_cases s with ⟨ho, e⟩ | ⟨ho, hp, e⟩ | ⟨ho, hp, hd, e⟩ | ⟨ho, hp, hd, e⟩ <;> rw [e]
  · exact .initUndirected hs ho
  · exact store _ _ ho (.constant hp)
  · exact store _ _ ho (.resync hp hd)
  · exact .initUnread hs ho hp hd

theorem relayCommand_ends {i : Instr} {idx : Nat} {f : Byte → RelayPos → Byte} {s t : State}
    (hi : RelayInstr i idx f) (h : relayCommand f idx s = .next t) : Ends s i t := by
  obtain ⟨hr, h⟩ := relayCommand_cases h
  have store : ∀ p cur s1, s.devSilent = false → relayPos? idx = some p → CurrentByte s cur s1 →
      Ends s i ((writeBack (f cur p) s1).2.pushReply (writeBack (f cur p) s1).1) := by
    intro p cur s1 hs hp hc
    rcases writeBack_cases (f cur p) s1 with ⟨hw, e⟩ | ⟨hw, e⟩ <;> rw [e]
    · exact .relayOk hi hr hs hp hc hw
    · exact .relayUnwritten hi hr hs hp hc hw
  rcases h with ⟨hp, rfl⟩ | ⟨p, cur, hp, hm, hc, hs, rfl⟩ | ⟨p, hp, hm, hs, ho, rfl⟩ |
    ⟨p, hp, hm, hs, ho, rfl⟩
  · exact .invalidIndex hi hr hp
  · exact store p cur s hs hp (.cached hm hc)
  · exact store p _ _ hs hp (.read hm ho)
  · exact .relayUnread hi hr hs hp hm ho

/-- Every next state of a command is one of the nine ends. -/
theorem exec_ends {i : Instr} {s t : State} (h : exec i s = .next t) : Ends s i t := by
  cases i with
  | init => exact execInit_ends h
  | turnOn idx => exact relayCommand_ends (.on idx) h
  | turnOff idx => exact relayCommand_ends (.off idx) h
  | currentState =>
    obtain ⟨hr, v, hc, rfl⟩ := execCurrentState_eq_next.1 h
    exact .currentState hr hc

/-- What a step does with each kind of event. -/
theorem step_cases {s t : State} (h : step s = .next t) :
    (s.events = [] ∧ t = s) ∨
    (∃ w rest, s.events = .command w :: rest ∧ exec (decode w) { s with events := rest } = .next t) ∨
    (∃ b rest, s.events = .otherWrite b :: rest ∧ t = otherWrite b { s with events := rest }) ∨
    (∃ q rest, s.events = .deviceSilent q :: rest ∧ t = setSilent q { s with events := rest }) ∨
    (∃ f rest, s.events = .restart f :: rest ∧ t = restart f { s with events := rest }) := by
  unfold step at h
  cases he : s.events with
  | nil => rw [takeEvent_nil he] at h; exact .inl ⟨rfl, by simpa [waitForEvent, eq_comm] using h⟩
  | cons e rest =>
    rw [takeEvent_cons he] at h
    refine .inr ?_
    cases e with
    | command w => exact .inl ⟨w, rest, rfl, h⟩
    | otherWrite b => exact .inr (.inl ⟨b, rest, rfl, by simpa [eq_comm] using h⟩)
    | deviceSilent q => exact .inr (.inr (.inl ⟨q, rest, rfl, by simpa [eq_comm] using h⟩))
    | restart f => exact .inr (.inr (.inr ⟨f, rest, rfl, by simpa [eq_comm] using h⟩))

end Sys2Proof.Machine
end

