-- ==== Sys2Proof/Laws/PerInstr.lean ====
section
/-! SUPPORT. The family `EncodesToRow`: the word of a command matches its row of
spec/opcode_table.json, one lemma per constructor. -/

namespace Sys2Proof.Laws

/-- The `match` number of the command's row. -/
def rowMatch : Instr → CmdWord
  | .init => 0x00#6
  | .turnOn _ => 0x10#6
  | .turnOff _ => 0x20#6
  | .currentState => 0x30#6

/-- Under the row's mask 0x30, the command's word is the row's match. -/
def EncodesToRow.Statement (i : Instr) : Prop := encode i &&& 0x30#6 = rowMatch i

/-- The bits the mask keeps are the two of `op`. -/
theorem mask_assembleFields (op : BitVec 2) (idx : Nat) :
    assembleFields op idx &&& 0x30#6 = op ++ 0#4 := by
  have h : ∀ (op : BitVec 2) (x : BitVec 4), (op ++ x : CmdWord) &&& 0x30#6 = op ++ 0#4 := by decide
  exact h op _

theorem EncodesToRow.init : EncodesToRow.Statement .init :=
  mask_assembleFields 0b00#2 0

theorem EncodesToRow.turnOn (idx : Nat) : EncodesToRow.Statement (.turnOn idx) :=
  mask_assembleFields 0b01#2 idx

theorem EncodesToRow.turnOff (idx : Nat) : EncodesToRow.Statement (.turnOff idx) :=
  mask_assembleFields 0b10#2 idx

theorem EncodesToRow.currentState : EncodesToRow.Statement .currentState :=
  mask_assembleFields 0b11#2 0

end Sys2Proof.Laws
end

