-- ==== Sys2Proof/Laws/Run.lean ====
section
/-! SUPPORT. Runs of several steps: one step taken off, and the induction over a run packaged once. -/

namespace Sys2Proof.Machine

@[simp] theorem run_zero (s : State) : Sys2Proof.core.run 0 s = .next s := rfl

theorem run_of_next {n : Nat} {s s' : State} (h : step s = .next s') :
    Sys2Proof.core.run (n + 1) s = Sys2Proof.core.run n s' := by
  have h' : Sys2Proof.core.step s = .next s' := h
  simp [Host.Core.run, h']

theorem run_of_fault {n : Nat} {s : State} {f : Fault} (h : step s = .fault f) :
    Sys2Proof.core.run (n + 1) s = .fault f := by
  have h' : Sys2Proof.core.step s = .fault f := h
  simp [Host.Core.run, h']

theorem run_of_refused {n : Nat} {s : State} {r : Refusal} (h : step s = .refused r) :
    Sys2Proof.core.run (n + 1) s = .refused r := by
  have h' : Sys2Proof.core.step s = .refused r := h
  simp [Host.Core.run, h']

/-- A run of `n + 1` steps that ends in a state takes a first step to a state. -/
theorem run_succ_cases {n : Nat} {s t : State} (h : Sys2Proof.core.run (n + 1) s = .next t) :
    ∃ s', step s = .next s' ∧ Sys2Proof.core.run n s' = .next t := by
  cases hs : step s with
  | next s' => exact ⟨s', rfl, by rwa [run_of_next hs] at h⟩
  | fault f => rw [run_of_fault hs] at h; cases h
  | refused r => rw [run_of_refused hs] at h; cases h

/-- A reflexive and transitive relation that every step keeps holds between the ends of every run. -/
theorem run_induction {P : State → State → Prop} (refl : ∀ s, P s s)
    (trans : ∀ a b c, P a b → P b c → P a c) (one : ∀ s t, step s = .next t → P s t) :
    ∀ (n : Nat) (s t : State), Sys2Proof.core.run n s = .next t → P s t := by
  intro n
  induction n with
  | zero => intro s t h; cases h; exact refl s
  | succ n ih =>
    intro s t h
    obtain ⟨s', hs, h'⟩ := run_succ_cases h
    exact trans _ _ _ (one _ _ hs) (ih s' t h')

end Sys2Proof.Machine
end

