-- ==== Sys2Proof/Tests/Slice0.lean ====
section
/-! SUPPORT. Tests whose expected results come from spec/95_test_vectors.md (each names its vector), the
refusals of `Instr.wf` and of the decoder, and for each statement with hypotheses a concrete state and
operands that meet them (`witness_<Name>`). -/

namespace Sys2Proof.Tests

open Sys2Proof.Machine

/-! ## Helpers -/

/-- A placed answer ok, with the byte a read would return where it is free. -/
def okIn (b : Byte) : DevInput := { ok := true, byte := b, other := none }

/-- A placed answer fail. -/
def failIn : DevInput := { ok := false, byte := 0x99#8, other := none }

/-- A ready controller whose cache and port are `c`, with placed answers. -/
def readyAt (c : Byte) (ins : List DevInput) : State :=
  { State.start Params.baseline c 0xFF#8 with
    cache := some c, ready := true, devWritten := true, inputs := ins }

/-- A controller after reset with placed answers. -/
def resetAt (port dir : Byte) (ins : List DevInput) : State :=
  { State.start Params.baseline port dir with inputs := ins }

/-- The variant parameters. -/
def resyncParams : Params := { Params.baseline with initResync := true }
def readParams : Params := { Params.baseline with rmwSource := .deviceRead }
def sharedParams : Params := { Params.baseline with exclusive := false }
def sharedReadParams : Params := { readParams with exclusive := false }

/-- The end state of a vector, `(CACHE, READY, DEV_PORT, DEV_DIR)`, with the results and the device
operations. -/
structure Seen where
  cache : Option Byte
  ready : Bool
  devPort : Byte
  devDir : Byte
  replies : List Reply
  bus : List BusEvent
deriving DecidableEq, Repr

/-- What a vector shows of an outcome; none for a stop. -/
def seen : Outcome → Option Seen
  | .next s => some ⟨s.cache, s.ready, s.devPort, s.devDir, s.replies, s.bus⟩
  | .fault _ => none
  | .refused _ => none

/-! ## Well-formed commands -/

theorem test_wf_refuses_turnOn_16 : (Instr.turnOn 16).wf = false := by decide
theorem test_wf_refuses_turnOff_16 : (Instr.turnOff 16).wf = false := by decide
theorem test_wf_accepts_15 : (Instr.turnOn 15).wf = true ∧ (Instr.turnOff 0).wf = true := by decide

/-! ## Words written out bit by bit: `op` in bits 5:4, `idx` in bits 3:0 (R35) -/

theorem test_decode_init : decode 0b000000#6 = .init ∧ decode 0b001111#6 = .init := by decide
theorem test_decode_turnOn : decode 0b010000#6 = .turnOn 0 ∧ decode 0b011001#6 = .turnOn 9 := by decide
theorem test_decode_turnOff : decode 0b100001#6 = .turnOff 1 ∧ decode 0b101010#6 = .turnOff 10 := by
  decide
theorem test_decode_currentState :
    decode 0b110000#6 = .currentState ∧ decode 0b111111#6 = .currentState := by decide
theorem test_encode : encode .init = 0b000000#6 ∧ encode (.turnOn 3) = 0b010011#6 ∧
    encode (.turnOff 8) = 0b101000#6 ∧ encode .currentState = 0b110000#6 := by decide
theorem test_decodeBytes : decodeBytes [0x15#8, 0x30#8] = .ok (.turnOn 5, [0x30#8]) := by rfl
theorem test_decodeBytes_refuses :
    decodeBytes [0x40#8] = .error .notSixBits ∧ decodeBytes [0x95#8] = .error .notSixBits ∧
    decodeBytes [] = .error .noWord := ⟨rfl, rfl, rfl⟩
theorem test_decodeTableWord : decodeTableWord 8 0x28 = some (.turnOff 8) ∧
    decodeTableWord 8 0x55 = none ∧ decodeTableWord 16 0x0128 = none := by decide
/-- V-E17 to V-E22. -/
theorem test_assemble : assemble "initialize()" = some 0x00#6 ∧
    assemble "turn_on(3)" = some 0x13#6 ∧ assemble "TURN_OFF 8" = some 0x28#6 ∧
    assemble "TURN_ON 16" = none ∧ assemble "TURN_ON -1" = none := by decide
theorem test_assemble_refuses : assemble "INIT 3" = none ∧ assemble "TURN_ON" = none ∧
    assemble "TOGGLE 3" = none ∧ assemble "turn_on 3" = none ∧ assemble "turn_on()" = none := by
  decide

/-! ## RelayBank: V-B8, V-B13, V-B12, V-B22, V-B29, V-B36 -/

theorem test_masks : bitMaskOn 7 = 0x80#8 ∧ bitMaskOff 7 = 0x7F#8 := by decide
theorem test_apply : applyOn 0x01#8 4 = 0x11#8 ∧ applyOff 0xFF#8 7 = 0x7F#8 := by decide
theorem test_relaySel : relaySel 0xA5#8 5 = true ∧ relaySel 0xA5#8 4 = false := by decide
theorem test_commute : applyOn (applyOff 0xA5#8 2) 5 = 0xA1#8 ∧
    applyOff (applyOn 0xA5#8 2) 5 = 0x85#8 := by decide
theorem test_relayPos_refuses : relayPos? 0 = none ∧ relayPos? 9 = none := by decide

/-! ## One step of each command -/

/-- V-T1. -/
theorem test_init_ok :
    seen (step ((resetAt 0xC3#8 0x00#8 [okIn 0x55#8, okIn 0x55#8]).withFetchWord 8 0x0A)) =
      some ⟨some 0x00#8, true, 0x00#8, 0xFF#8, [.ok], [.setDir 0xFF#8 true, .write 0x00#8 true]⟩ := by
  decide

/-- V-T40: the variant `INIT_RESYNC = true`, whose last write fails. -/
theorem test_init_resync_write_fails :
    seen (exec .init
      { resetAt 0x81#8 0x00#8 [okIn 0x55#8, okIn 0x81#8, failIn] with params := resyncParams }) =
      some ⟨none, false, 0x81#8, 0xFF#8, [.deviceWriteError],
        [.setDir 0xFF#8 true, .read (some 0x81#8), .write 0x81#8 false]⟩ := by decide

/-- V-T9. -/
theorem test_turnOn_ok : seen (step ((readyAt 0x01#8 [okIn 0x55#8]).withFetchWord 8 0x15)) =
    some ⟨some 0x11#8, true, 0x11#8, 0xFF#8, [.ok], [.write 0x11#8 true]⟩ := by decide

/-- V-T36: read before write, another writer having set bit 7. -/
theorem test_turnOn_reads_first :
    seen (exec (.turnOn 2) { readyAt 0x01#8 [okIn 0x55#8, okIn 0x55#8] with
      devPort := 0x81#8, params := sharedReadParams }) =
    some ⟨some 0x83#8, true, 0x83#8, 0xFF#8, [.ok],
      [.read (some 0x81#8), .write 0x83#8 true]⟩ := by decide

/-- V-T20. -/
theorem test_turnOff_ok : seen (step ((readyAt 0xFF#8 [okIn 0x55#8]).withFetchWord 8 0x28)) =
    some ⟨some 0x7F#8, true, 0x7F#8, 0xFF#8, [.ok], [.write 0x7F#8 true]⟩ := by decide

/-- V-T23. -/
theorem test_turnOff_fails : seen (exec (.turnOff 4) (readyAt 0xFF#8 [failIn])) =
    some ⟨some 0xFF#8, true, 0xFF#8, 0xFF#8, [.deviceWriteError], [.write 0xF7#8 false]⟩ := by decide

/-- V-T30: the cache is returned, not the port. -/
theorem test_currentState_ok :
    seen (step ({ readyAt 0x11#8 [] with devPort := 0x91#8 }.withFetchWord 8 0x3C)) =
      some ⟨some 0x11#8, true, 0x91#8, 0xFF#8, [.okData 0x11#8], []⟩ := by decide

/-- V-T29. -/
theorem test_currentState_not_ready : exec .currentState State.reset = .fault .notReady := rfl

/-! ## Witnesses -/

theorem witness_IndexAndBitPositionsAgree : relayPos? 1 = some 0 ∧ relayPos? 8 = some 7 ∧
    relayPos? 0 = none ∧ relayPos? 9 = none := by decide
theorem witness_MaskOnHasExactlyItsBit : relayPos? 1 = some 0 ∧ relayPos? 8 = some 7 ∧ 7 < 8 := by decide
theorem witness_MaskOffLacksExactlyItsBit : relayPos? 1 = some 0 ∧ relayPos? 8 = some 7 ∧ 0 < 8 := by
  decide
theorem witness_ApplyForcesOneBitAndKeepsSeven : (0 : RelayPos) ≠ 7 := by decide
theorem witness_ForcingAndPreservation : (0 : RelayPos) ≠ 7 ∧ relayPos? 1 = some 0 ∧
    relayPos? 8 = some 7 ∧ 0 < 8 ∧ 7 < 8 ∧ 7 ≠ 1 - 1 ∧ 0 ≠ 8 - 1 := by decide
theorem witness_DistinctRelaysCommute : (7 : RelayPos) ≠ 0 := by decide
theorem witness_MasksCoverThePortOnce : bitMaskOn 7 = bitMaskOn 7 ∧ 7 < 8 ∧ (3 : RelayPos) ≠ 4 := by decide
theorem witness_DecodeOfEncode : Instr.init.wf = true ∧ (Instr.turnOn 0).wf = true ∧
    (Instr.turnOff 15).wf = true ∧ Instr.currentState.wf = true := by decide
theorem witness_EncodeOfDecode : decode 0x0F#6 = .init ∧ decode 0x3F#6 = .currentState ∧
    decode 0x10#6 ≠ .init ∧ decode 0x2F#6 ≠ .currentState := by decide
theorem witness_CommandMap : 0 ≤ 15 ∧ 15 ≤ 15 ∧ (readyAt 0x5A#8 []).ready = true ∧
    (0#4).toNat = 0 ∧ 9 ≤ (9#4).toNat ∧ 9 ≤ (15#4).toNat := by decide
theorem witness_AssemblerGivesTheWords : 0 ≤ 15 ∧ 15 ≤ 15 ∧ 15 < 16 := by decide
theorem witness_EveryCommandGivesOneResult :
    (∃ t, exec .init (readyAt 0x08#8 [failIn]) = .next t) ∧
    (∃ t, exec .currentState (readyAt 0x11#8 []) = .next t) := ⟨⟨_, rfl⟩, ⟨_, rfl⟩⟩
theorem witness_StepRunsTheDecodedCommand :
    { readyAt 0x00#8 [] with events := [.command 0x11#6] }.events = .command 0x11#6 :: [] := rfl
theorem witness_PlacedWordRunsItsCommand : (Instr.turnOn 15).wf = true := by decide
theorem witness_EventsBetweenCommands :
    State.reset.events = [] ∧ State.reset.params.exclusive = true ∧
    sharedParams.exclusive = false ∧
    { State.reset with events := [.otherWrite 0xAA#8] }.events = .otherWrite 0xAA#8 :: [] ∧
    { State.reset with events := [.deviceSilent true] }.events = .deviceSilent true :: [] ∧
    { State.reset with events := [.restart none] }.events = .restart none :: [] ∧
    { State.reset with events := [.restart (some (0x01#8, 0x02#8))] }.events =
      .restart (some (0x01#8, 0x02#8)) :: [] := by decide
theorem witness_StepKeepsTheInvariant : (readyAt 0x01#8 [okIn 0x00#8]).Inv ∧
    ∃ t, step ((readyAt 0x01#8 [okIn 0x00#8]).withFetchWord 8 0x15) = .next t := ⟨by decide, _, rfl⟩
theorem witness_RunsKeepTheInvariant : Params.baseline.exclusive = true ∧
    ∃ t, Sys2Proof.core.run 1 { State.start Params.baseline 0xC3#8 0x00#8 with
      events := [.command 0x00#6], inputs := [okIn 0x00#8, okIn 0x00#8] } = .next t ∧
      t.ready = true := ⟨rfl, _, rfl, rfl⟩
theorem witness_ReadyMovesOnlyByInit :
    (∃ t, exec .init (resetAt 0x00#8 0x00#8 [okIn 0x00#8, okIn 0x00#8]) = .next t ∧ t.replies = [.ok]) ∧
    (∃ t, exec .init (readyAt 0x08#8 [failIn]) = .next t ∧ t.replies = [.deviceInitError]) ∧
    (∃ t, exec .init (readyAt 0x08#8 [okIn 0x00#8, failIn]) = .next t ∧
      t.replies = [.deviceWriteError]) ∧
    (∃ t, exec (.turnOn 9) (readyAt 0x08#8 []) = .next t ∧ t.replies = [.invalidRelayIndex]) ∧
    (∃ t, step ((readyAt 0x08#8 [failIn]).withFetchWord 8 0x00) = .next t ∧ t.ready ≠ true) ∧
    (∃ t, step { readyAt 0x08#8 [] with events := [.restart none] } = .next t ∧ t.ready ≠ true) :=
  ⟨⟨_, rfl, rfl⟩, ⟨_, rfl, rfl⟩, ⟨_, rfl, rfl⟩, ⟨_, rfl, rfl⟩, ⟨_, rfl, by decide⟩,
    ⟨_, rfl, by decide⟩⟩
theorem witness_CacheFollowsAcceptedWrites :
    (∃ t, exec (.turnOff 8) (readyAt 0xFF#8 [okIn 0x00#8]) = .next t ∧ t.replies = [.ok]) ∧
    (∃ t, exec .init (readyAt 0x08#8 [failIn]) = .next t ∧ t.replies = [.deviceInitError]) ∧
    (∃ t, exec (.turnOff 1) (readyAt 0xFF#8 [failIn]) = .next t ∧ t.replies = [.deviceWriteError]) :=
  ⟨⟨_, rfl, rfl⟩, ⟨_, rfl, rfl⟩, ⟨_, rfl, rfl⟩⟩
theorem witness_CommandFrame :
    (∃ t, exec (.turnOn 1) (readyAt 0x00#8 [okIn 0x00#8]) = .next t) ∧
    (∃ t, exec .currentState (readyAt 0x00#8 []) = .next t) := ⟨⟨_, rfl⟩, ⟨_, rfl⟩⟩
theorem witness_HistoryOnlyGrows :
    ∃ t, step ((readyAt 0x00#8 [okIn 0x00#8]).withFetchWord 8 0x18) = .next t := ⟨_, rfl⟩
theorem witness_WhoReachesTheDevice :
    (∃ t, exec .init (resetAt 0x00#8 0x00#8 [okIn 0x00#8, okIn 0x00#8]) = .next t) ∧
    (∃ t, exec (.turnOn 8) { readyAt 0x00#8 [okIn 0x00#8, okIn 0x00#8] with params := readParams } =
      .next t ∧ t.bus = [.read (some 0x00#8), .write 0x80#8 true]) ∧
    (∃ t, exec .currentState (readyAt 0x00#8 []) = .next t) := ⟨⟨_, rfl⟩, ⟨_, rfl, rfl⟩, ⟨_, rfl⟩⟩
theorem witness_DevWriteIsAllOrNothing : (readyAt 0x00#8 [okIn 0x00#8]).input.ok = true ∧
    (readyAt 0x00#8 [failIn]).input.ok = false ∧ (readyAt 0x00#8 [failIn]).params.exclusive = true := by
  decide
theorem witness_DevSetDirStoresTheMask : (resetAt 0x00#8 0x00#8 [okIn 0x00#8]).input.ok = true ∧
    (resetAt 0x00#8 0x00#8 [failIn]).input.ok = false := by decide
theorem witness_DevReadReturnsThePort :
    (readyAt 0x81#8 [okIn 0x00#8]).input.ok = true ∧ (readyAt 0x81#8 []).devDir = 0xFF#8 ∧
    (readyAt 0x81#8 []).devWritten = true ∧ (readyAt 0x81#8 [failIn]).input.ok = false ∧
    (resetAt 0x81#8 0x0F#8 [okIn 0x55#8]).devDir ≠ 0xFF#8 ∧
    (resetAt 0x81#8 0xFF#8 [okIn 0x55#8]).devWritten = false := by decide
theorem witness_InitBaseline : (resetAt 0x77#8 0x12#8 []).devSilent = false ∧
    (resetAt 0x77#8 0x12#8 []).params.initResync = false ∧
    ((resetAt 0x77#8 0x12#8 [failIn]).inputAt 0).ok = false ∧
    ((resetAt 0x77#8 0x12#8 [okIn 0x00#8, failIn]).inputAt 0).ok = true ∧
    ((resetAt 0x77#8 0x12#8 [okIn 0x00#8, failIn]).inputAt 1).ok = false ∧
    ((resetAt 0x77#8 0x12#8 [okIn 0x00#8, okIn 0x00#8]).inputAt 1).ok = true := by decide
/-- A controller about to run `INIT` with `INIT_RESYNC = true`, with placed answers. -/
def resyncAt (ins : List DevInput) : State := { resetAt 0x81#8 0x00#8 ins with params := resyncParams }
theorem witness_InitResync : (resyncAt []).devSilent = false ∧
    (resyncAt []).params.initResync = true ∧ ((resyncAt [failIn]).inputAt 0).ok = false ∧
    ((resyncAt [okIn 0x00#8, failIn]).inputAt 0).ok = true ∧
    ((resyncAt [okIn 0x00#8, failIn]).inputAt 1).ok = false ∧
    ((resyncAt [okIn 0x00#8, okIn 0x81#8, failIn]).inputAt 1).ok = true ∧
    ((resyncAt [okIn 0x00#8, okIn 0x81#8, failIn]).inputAt 2).ok = false ∧
    ((resyncAt [okIn 0x00#8, okIn 0x81#8, okIn 0x00#8]).inputAt 2).ok = true ∧
    (resyncAt []).devWritten = false := by decide
/-- The same after this block has written: the read returns the port 0x81, not the placed byte. -/
theorem witness_InitResync_written :
    ({ readyAt 0x81#8 [okIn 0x00#8, okIn 0x3C#8, okIn 0x00#8] with params := resyncParams }).devWritten =
      true ∧
    ∃ t, exec .init { readyAt 0x81#8 [okIn 0x00#8, okIn 0x3C#8, okIn 0x00#8] with
      params := resyncParams } = .next t ∧ t.cache = some 0x81#8 := ⟨rfl, _, rfl, rfl⟩
theorem witness_TurnOnBaseline : State.reset.ready = false ∧ (9 ≤ 9 ∧ 9 ≤ 15 ∧ 1 ≤ 1 ∧ 8 ≤ 8) ∧
    (readyAt 0x5A#8 [okIn 0x00#8]).ready = true ∧
    (readyAt 0x5A#8 [okIn 0x00#8]).params.rmwSource = .cache ∧
    (readyAt 0x5A#8 [okIn 0x00#8]).cache = some 0x5A#8 ∧
    (readyAt 0x5A#8 [okIn 0x00#8]).devSilent = false ∧
    (readyAt 0x5A#8 [okIn 0x00#8]).input.ok = true ∧ (readyAt 0x5A#8 [failIn]).input.ok = false := by
  decide
theorem witness_TurnOffBaseline : State.reset.ready = false ∧ (9 ≤ 9 ∧ 9 ≤ 15 ∧ 1 ≤ 1 ∧ 8 ≤ 8) ∧
    (readyAt 0xFF#8 [okIn 0x00#8]).ready = true ∧
    (readyAt 0xFF#8 [okIn 0x00#8]).params.rmwSource = .cache ∧
    (readyAt 0xFF#8 [okIn 0x00#8]).cache = some 0xFF#8 ∧
    (readyAt 0xFF#8 [okIn 0x00#8]).devSilent = false ∧
    (readyAt 0xFF#8 [okIn 0x00#8]).input.ok = true ∧ (readyAt 0xFF#8 [failIn]).input.ok = false := by
  decide
/-- A ready controller with `RMW_SOURCE = DEVICE_READ`, with placed answers. -/
def readAt (ins : List DevInput) : State := { readyAt 0x01#8 ins with params := readParams }
theorem witness_ReadBeforeWrite : (readAt []).ready = true ∧ 1 ≤ 1 ∧ 8 ≤ 8 ∧
    (readAt []).params.rmwSource = .deviceRead ∧ (readAt []).devSilent = false ∧
    ((readAt [failIn]).inputAt 0).ok = false ∧
    ((readAt [okIn 0x00#8, failIn]).inputAt 0).ok = true ∧
    ((readAt [okIn 0x00#8, failIn]).inputAt 1).ok = false ∧
    ((readAt [okIn 0x00#8, okIn 0x00#8]).inputAt 1).ok = true := by decide
/-- Off the condition of R23 the byte read is the placed free byte 0x3C, not the port 0x01. -/
theorem witness_ReadBeforeWrite_freeByte :
    ({ readAt [okIn 0x3C#8, okIn 0x00#8] with devDir := 0x0F#8 }).devDir ≠ 0xFF#8 ∧
    (∃ t, exec (.turnOn 1) { readAt [okIn 0x3C#8, okIn 0x00#8] with devDir := 0x0F#8 } = .next t ∧
      t.devPort = 0x3D#8) ∧
    (∃ t, exec (.turnOff 3) { readAt [okIn 0x3C#8, okIn 0x00#8] with devWritten := false } = .next t ∧
      t.devPort = 0x38#8) := ⟨by decide, ⟨_, rfl, rfl⟩, ⟨_, rfl, rfl⟩⟩
theorem witness_InvalidIndexIsRejectedFirst :
    (∃ t, exec (.turnOn 0) (readyAt 0x5A#8 [failIn]) = .next t ∧ t.replies = [.invalidRelayIndex]) ∧
    (∃ t, exec (.turnOff 9) (readyAt 0x5A#8 [failIn]) = .next t ∧ t.replies = [.invalidRelayIndex]) :=
  ⟨⟨_, rfl, rfl⟩, ⟨_, rfl, rfl⟩⟩
theorem witness_FailedRelayCommandChangesNothing : (readyAt 0xFF#8 [failIn]).params.exclusive = true ∧
    ∃ t, exec (.turnOff 8) (readyAt 0xFF#8 [failIn]) = .next t ∧ t.replies ≠ [.ok] :=
  ⟨rfl, _, rfl, by decide⟩
theorem witness_OkRelayCommandChangesOneRelay : (readyAt 0x01#8 [okIn 0x00#8]).Inv ∧
    (readyAt 0x01#8 [okIn 0x00#8]).params.exclusive = true ∧
    (∃ t, exec (.turnOn 8) (readyAt 0x01#8 [okIn 0x00#8]) = .next t ∧ t.replies = [.ok]) ∧
    (∃ t, exec (.turnOff 1) (readyAt 0x01#8 [okIn 0x00#8]) = .next t ∧ t.replies = [.ok]) :=
  ⟨by decide, rfl, ⟨_, rfl, rfl⟩, ⟨_, rfl, rfl⟩⟩
theorem witness_RepeatedCommandWritesAgain :
    (readyAt 0x00#8 [okIn 0x00#8, okIn 0x00#8]).params.rmwSource = .cache ∧
    ∃ t u, exec (.turnOn 3) (readyAt 0x00#8 [okIn 0x00#8, okIn 0x00#8]) = .next t ∧
      t.replies = [.ok] ∧ exec (.turnOn 3) t = .next u ∧ u.replies = [.ok, .ok] :=
  ⟨rfl, _, _, rfl, rfl, rfl, rfl⟩
theorem witness_RetryWritesTheSameByte :
    (readyAt 0x00#8 [failIn, okIn 0x00#8]).params.rmwSource = .cache ∧
    (∃ t, exec (.turnOn 3) (readyAt 0x00#8 [failIn, okIn 0x00#8]) = .next t ∧
      t.replies = [.deviceWriteError] ∧ t.input.ok = true) ∧
    (∃ t, exec (.turnOff 3) (readyAt 0x00#8 [failIn, failIn]) = .next t ∧
      t.replies = [.deviceWriteError] ∧ t.input.ok = false) :=
  ⟨rfl, ⟨_, rfl, rfl, rfl⟩, ⟨_, rfl, rfl, rfl⟩⟩
/-- A shared device, about to see another writer's 0x81 and then `TURN_ON 2`. -/
def sharedAt (p : Params) : State :=
  { readyAt 0x01#8 [okIn 0x00#8, okIn 0x00#8] with
    params := p, events := [.otherWrite 0x81#8, .command 0b010010#6] }
theorem witness_StaleCacheLosesTheOtherWrite : decode 0b010010#6 = .turnOn 2 ∧
    (sharedAt sharedParams).params.exclusive = false ∧
    (sharedAt sharedParams).params.rmwSource = .cache ∧ (sharedAt sharedParams).ready = true ∧
    (sharedAt sharedParams).cache = some 0x01#8 ∧ (sharedAt sharedParams).devSilent = false ∧
    ((sharedAt sharedParams).inputAt 0).ok = true ∧
    (sharedAt sharedReadParams).params.exclusive = false ∧
    (sharedAt sharedReadParams).params.rmwSource = .deviceRead ∧
    (sharedAt sharedReadParams).devDir = 0xFF#8 ∧ (sharedAt sharedReadParams).devWritten = true ∧
    ((sharedAt sharedReadParams).inputAt 0).other = none ∧
    ((sharedAt sharedReadParams).inputAt 1).ok = true := by decide
theorem witness_CurrentStateReturnsTheCache : (readyAt 0x11#8 []).ready = true ∧
    (readyAt 0x11#8 []).cache = some 0x11#8 ∧ State.reset.ready = false := by decide
theorem witness_NotReadyFaults : State.reset.ready = false ∧
    step (State.reset.withFetchWord 8 0x30) = .fault .notReady := ⟨rfl, rfl⟩
theorem witness_CacheWithoutValueFaults : { readyAt 0x00#8 [] with cache := none }.ready = true ∧
    { readyAt 0x00#8 [] with cache := none }.cache = none ∧
    { readyAt 0x00#8 [] with cache := none }.params.rmwSource = .cache ∧ 1 ≤ 1 ∧ 8 ≤ 8 := by decide
theorem witness_SilentDeviceBlocks : { readyAt 0x00#8 [] with devSilent := true }.devSilent = true ∧
    { readyAt 0x00#8 [] with devSilent := true }.ready = true ∧
    { readyAt 0x00#8 [] with devSilent := true }.cache.isSome = true ∧
    { readAt [] with devSilent := true }.params.rmwSource = .deviceRead := by decide
theorem witness_WhenACommandStops : State.reset.Inv ∧ exec (.turnOn 0) State.reset = .fault .notReady ∧
    exec .init { State.reset with devSilent := true } = .fault .deviceSilent := ⟨by decide, rfl, rfl⟩
theorem witness_ReadyControllerNeverStops : (readyAt 0x00#8 []).Inv ∧ (readyAt 0x00#8 []).ready = true ∧
    (readyAt 0x00#8 []).devSilent = false := by decide
theorem witness_BaselineNeverLooksAtThePort : (readyAt 0x01#8 [failIn]).params.initResync = false ∧
    (readyAt 0x01#8 [failIn]).params.rmwSource = .cache ∧
    ∃ t, exec (.turnOn 2) (readyAt 0x01#8 [failIn]) = .next t := ⟨rfl, rfl, _, rfl⟩

end Sys2Proof.Tests
end

/-! ## O24: parameters stay, transcripts only grow

`KeepsHistory` is reflexive and transitive, holds across a single device operation and across a reply, and
so along each of the nine ends of a command and across each event. -/

namespace Sys2Proof.Machine

/-- `t` is reached from `s` with the parameters kept, the two transcripts only extended, and one input
drawn for each device operation issued. -/
structure KeepsHistory (s t : State) : Prop where
  params : t.params = s.params
  bus : s.bus <+: t.bus
  replies : s.replies <+: t.replies
  drawn : t.drawn + s.bus.length = s.drawn + t.bus.length

namespace KeepsHistory

/-- A change outside the parameters, the transcripts and the input counter. -/
theorem of_same {s t : State} (hp : t.params = s.params) (hb : t.bus = s.bus)
    (hr : t.replies = s.replies) (hd : t.drawn = s.drawn) : KeepsHistory s t :=
  ⟨hp, hb ▸ List.prefix_rfl, hr ▸ List.prefix_rfl, by rw [hb, hd]⟩

/-- One device operation: one bus event, one input. -/
theorem of_devOp {s t : State} (e : BusEvent) (hp : t.params = s.params) (hb : t.bus = s.bus ++ [e])
    (hr : t.replies = s.replies) (hd : t.drawn = s.drawn + 1) : KeepsHistory s t where
  params := hp
  bus := hb ▸ List.prefix_append _ _
  replies := hr ▸ List.prefix_rfl
  drawn := by rw [hb, hd, List.length_append, List.length_singleton]; omega

theorem trans {s t u : State} (h : KeepsHistory s t) (k : KeepsHistory t u) : KeepsHistory s u where
  params := k.params.trans h.params
  bus := h.bus.trans k.bus
  replies := h.replies.trans k.replies
  drawn := by
    have hst := h.drawn
    have htu := k.drawn
    omega

theorem pushReply {s t : State} (h : KeepsHistory s t) (r : Reply) : KeepsHistory s (t.pushReply r) :=
  h.trans ⟨rfl, List.prefix_rfl, List.prefix_append _ _, rfl⟩

theorem dropReady {s t : State} (h : KeepsHistory s t) : KeepsHistory s t.dropReady :=
  h.trans (of_same rfl rfl rfl rfl)

theorem setReady {s t : State} (h : KeepsHistory s t) : KeepsHistory s t.setReady :=
  h.trans (of_same rfl rfl rfl rfl)

theorem loadCache {s t : State} (h : KeepsHistory s t) (v : Byte) : KeepsHistory s (t.loadCache v) :=
  h.trans (of_same rfl rfl rfl rfl)

/-- A device operation that leaves the device as it finds it: a read, or a failed write. -/
theorem logDevOp {s t : State} (h : KeepsHistory s t) (e : BusEvent) :
    KeepsHistory s (t.beginDevOp.logBus e) :=
  h.trans (of_devOp e rfl rfl rfl rfl)

/-- An accepted write. -/
theorem logAccepted {s t : State} (h : KeepsHistory s t) (v : Byte) (e : BusEvent) :
    KeepsHistory s ((t.beginDevOp.acceptWrite v).logBus e) :=
  h.trans (of_devOp e rfl rfl rfl rfl)

end KeepsHistory

theorem keepsHistory_refl (s : State) : KeepsHistory s s := .of_same rfl rfl rfl rfl

theorem directed_keepsHistory (s : State) : KeepsHistory s (directed s) :=
  .of_devOp (.setDir 0xFF#8 true) rfl rfl rfl rfl

theorem undirected_keepsHistory (s : State) : KeepsHistory s (undirected s) :=
  .of_devOp (.setDir 0xFF#8 false) rfl rfl rfl rfl

/-- `INIT` up to its write. -/
theorem InitialByte.keepsHistory {s s1 : State} {v : Byte} (h : InitialByte s v s1) :
    KeepsHistory s s1 := by
  cases h with
  | constant => exact directed_keepsHistory s
  | resync => exact (directed_keepsHistory s).logDevOp _

/-- `TURN_ON` and `TURN_OFF` up to their write. -/
theorem CurrentByte.keepsHistory {s s1 : State} {cur : Byte} (h : CurrentByte s cur s1) :
    KeepsHistory s s1 := by
  cases h with
  | cached => exact keepsHistory_refl s
  | read => exact (keepsHistory_refl s).logDevOp _

theorem Ends.keepsHistory {s t : State} {i : Instr} (h : Ends s i t) : KeepsHistory s t := by
  cases h with
  | initUndirected => exact (undirected_keepsHistory s).pushReply _
  | initUnread => exact ((directed_keepsHistory s).logDevOp _).dropReady.pushReply _
  | initUnwritten _ _ hv => exact (hv.keepsHistory.logDevOp _).pushReply _
  | initOk _ _ hv => exact ((hv.keepsHistory.logAccepted _ _).loadCache _).setReady.pushReply _
  | currentState | invalidIndex => exact (keepsHistory_refl s).pushReply _
  | relayUnread => exact ((keepsHistory_refl s).logDevOp _).pushReply _
  | relayUnwritten _ _ _ _ hc => exact (hc.keepsHistory.logDevOp _).pushReply _
  | relayOk _ _ _ _ hc => exact ((hc.keepsHistory.logAccepted _ _).loadCache _).pushReply _

theorem exec_keepsHistory {i : Instr} {s t : State} (h : exec i s = .next t) : KeepsHistory s t :=
  (exec_ends h).keepsHistory

theorem otherWrite_keepsHistory (b : Byte) (s : State) : KeepsHistory s (otherWrite b s) := by
  rcases otherWrite_cases b s with ⟨-, e⟩ | ⟨-, e⟩ <;> rw [e]
  · exact keepsHistory_refl s
  · exact .of_same rfl rfl rfl rfl

/-- The key fact of O24; it holds of a command and of every event of the environment. -/
theorem step_keepsHistory {s t : State} (h : step s = .next t) : KeepsHistory s t := by
  have taken : ∀ rest, KeepsHistory s { s with events := rest } := fun _ => .of_same rfl rfl rfl rfl
  rcases step_cases h with ⟨-, rfl⟩ | ⟨w, rest, -, hx⟩ | ⟨b, rest, -, rfl⟩ | ⟨q, rest, -, rfl⟩ |
    ⟨f, rest, -, rfl⟩
  · exact keepsHistory_refl _
  · exact (taken rest).trans (exec_keepsHistory hx)
  · exact (taken rest).trans (otherWrite_keepsHistory b _)
  · exact .of_same rfl rfl rfl rfl
  · exact .of_same rfl rfl rfl rfl

/-- Settles O24: every step keeps the history, whichever event it takes. -/
theorem historyOnlyGrows : Obligations.HistoryOnlyGrows := by
  intro s t h
  obtain ⟨hparams, hbus, hreplies, hdrawn⟩ := step_keepsHistory h
  exact ⟨hparams, hbus, hreplies, hdrawn⟩

end Sys2Proof.Machine

/-! ## O21: `READY` moves only by `INIT` and by the start of a process

A command but `INIT` keeps `READY` at each of its ends, whichever byte it works on. The four ends of `INIT`
give three results, and each result says what becomes of `READY`. -/

namespace Sys2Proof.Machine

/-- `INIT` up to its write has neither moved `READY` nor given a result. -/
theorem InitialByte.keeps_ready_replies {s s1 : State} {v : Byte} (h : InitialByte s v s1) :
    s1.ready = s.ready ∧ s1.replies = s.replies := by
  cases h <;> exact ⟨rfl, rfl⟩

/-- `TURN_ON` and `TURN_OFF` up to their write. -/
theorem CurrentByte.ready_eq {s s1 : State} {cur : Byte} (h : CurrentByte s cur s1) :
    s1.ready = s.ready := by
  cases h <;> rfl

theorem Ends.ready_eq_of_ne_init {s t : State} {i : Instr} (h : Ends s i t) (hi : i ≠ .init) :
    t.ready = s.ready := by
  cases h with
  | initUndirected | initUnread | initUnwritten | initOk => exact absurd rfl hi
  | currentState | invalidIndex | relayUnread => rfl
  | relayUnwritten _ _ _ _ hc | relayOk _ _ _ _ hc => simpa using hc.ready_eq

/-- The three results of `INIT`, each with what becomes of `READY` (R12, R57). -/
theorem Ends.init_reply_ready {s t : State} (h : Ends s .init t) :
    (t.replies = s.replies ++ [.ok] ∧ t.ready = true) ∨
    (t.replies = s.replies ++ [.deviceInitError] ∧ t.ready = false) ∨
    (t.replies = s.replies ++ [.deviceWriteError] ∧ t.ready = s.ready) := by
  cases h with
  | initUndirected | initUnread => exact .inr (.inl ⟨rfl, rfl⟩)
  | initUnwritten _ _ hv =>
    obtain ⟨hready, hreplies⟩ := hv.keeps_ready_replies
    exact .inr (.inr ⟨by simp [hreplies], by simp [hready]⟩)
  | initOk _ _ hv =>
    obtain ⟨-, hreplies⟩ := hv.keeps_ready_replies
    exact .inl ⟨by simp [hreplies], by simp⟩
  | invalidIndex hi | relayUnread hi | relayUnwritten hi | relayOk hi => nomatch hi

theorem exec_ready_eq_of_ne_init {i : Instr} {s t : State} (h : exec i s = .next t) (hi : i ≠ .init) :
    t.ready = s.ready :=
  (exec_ends h).ready_eq_of_ne_init hi

@[simp] theorem otherWrite_ready (b : Byte) (s : State) : (otherWrite b s).ready = s.ready := by
  rcases otherWrite_cases b s with ⟨-, e⟩ | ⟨-, e⟩ <;> rw [e]

/-- The only events that can move `READY` are a word of `INIT` and the start of a process. -/
theorem step_ready_cases {s t : State} (h : step s = .next t) :
    t.ready = s.ready ∨ NextCommand s .init ∨
      ∃ f rest, s.events = .restart f :: rest ∧ t.ready = false := by
  rcases step_cases h with ⟨-, rfl⟩ | ⟨w, rest, he, hx⟩ | ⟨b, rest, -, rfl⟩ | ⟨q, rest, -, rfl⟩ |
    ⟨f, rest, he, rfl⟩
  · exact .inl rfl
  · by_cases hd : decode w = .init
    · exact .inr (.inl ⟨w, rest, he, hd⟩)
    · have hready := exec_ready_eq_of_ne_init hx hd
      exact .inl hready
  · exact .inl (otherWrite_ready b _)
  · exact .inl rfl
  · exact .inr (.inr ⟨f, rest, he, rfl⟩)

/-- Settles O21: the last result tells the three ends of `INIT` apart. -/
theorem readyMovesOnlyByInit : Obligations.ReadyMovesOnlyByInit := by
  refine ⟨fun i s t r h hr => ?_, fun s t h hne => (step_ready_cases h).resolve_left hne⟩
  by_cases hi : i = .init
  · subst hi
    rcases (exec_ends h).init_reply_ready with ⟨hr', ht⟩ | ⟨hr', ht⟩ | ⟨hr', ht⟩ <;>
    · obtain rfl : r = _ := by simpa [hr'] using hr.symm
      simp [ht]
  · simp [hi, exec_ready_eq_of_ne_init h hi]

/-! ## O17: the state after reset -/

@[simp] theorem State.start_ready (p : Params) (port dir : Byte) :
    (State.start p port dir).ready = false := rfl
@[simp] theorem State.start_cache (p : Params) (port dir : Byte) :
    (State.start p port dir).cache = none := rfl
@[simp] theorem State.start_devPort (p : Params) (port dir : Byte) :
    (State.start p port dir).devPort = port := rfl
@[simp] theorem State.start_devDir (p : Params) (port dir : Byte) :
    (State.start p port dir).devDir = dir := rfl

/-- R75: every command but `INIT` tests `READY` first and faults while it is 0. -/
theorem exec_eq_notReady {i : Instr} {s : State} (hi : i ≠ .init) (h : s.ready = false) :
    exec i s = .fault .notReady := by
  cases i with
  | init => exact absurd rfl hi
  | turnOn | turnOff | currentState => exact ifReady_eq_fault.2 (.inl ⟨h, rfl⟩)

/-- Settles O17. -/
theorem afterResetNothingIsKnown : Obligations.AfterResetNothingIsKnown := by
  intro p port dir
  have fault : ∀ i, i ≠ .init → exec i (State.start p port dir) = .fault .notReady :=
    fun _ hi => exec_eq_notReady hi (State.start_ready p port dir)
  exact ⟨State.start_ready p port dir, State.start_cache p port dir, State.start_devPort p port dir,
    State.start_devDir p port dir, fun idx => ⟨fault (.turnOn idx) nofun, fault (.turnOff idx) nofun⟩,
    fault .currentState nofun⟩

end Sys2Proof.Machine

/-! ## O26, O27, O28: the three device operations

`beginDevOp` lets the other writer act, and each operation then does its own part: a write sets the port or
nothing, a setting of the direction sets `DEV_DIR` either way, a read only answers. -/

namespace Sys2Proof.Machine

/-- R27: under `EXCLUSIVE = true` a device operation finds the port as it was. -/
theorem portSeen_of_exclusive {s : State} (h : s.params.exclusive = true) :
    s.input.portSeen s.params.exclusive s.devPort = s.devPort := by
  rw [h, DevInput.portSeen_exclusive]

theorem devWrite_devPort_of_ok {s : State} (v : Byte) (h : s.input.ok = true) :
    (devWrite v s).2.devPort = v := by
  rw [devWrite_ok v h, State.logBus_devPort, State.acceptWrite_devPort]

theorem devWrite_devPort_of_fail {s : State} (v : Byte) (h : s.input.ok = false) :
    (devWrite v s).2.devPort = s.input.portSeen s.params.exclusive s.devPort := by
  rw [devWrite_fail v h, State.logBus_devPort, State.beginDevOp_devPort]

/-- A write, accepted or not, touches neither the direction nor the controller. -/
theorem devWrite_frame (v : Byte) (s : State) :
    (devWrite v s).2.devDir = s.devDir ∧ (devWrite v s).2.cache = s.cache ∧
      (devWrite v s).2.ready = s.ready := by
  cases h : s.input.ok with
  | true => simp [devWrite_ok v h]
  | false => simp [devWrite_fail v h]

/-- Settles O26. -/
theorem devWriteIsAllOrNothing : Obligations.DevWriteIsAllOrNothing := by
  intro v s
  have unchanged : s.input.ok = false → s.params.exclusive = true →
      (devWrite v s).2.devPort = s.devPort := fun hfail hex =>
    (devWrite_devPort_of_fail v hfail).trans (portSeen_of_exclusive hex)
  exact ⟨devWrite_fst v s, devWrite_devPort_of_ok v, devWrite_devPort_of_fail v, unchanged,
    devWrite_frame v s⟩

theorem devSetDir_devDir (m : Byte) (s : State) :
    (devSetDir m s).2.devDir = if s.input.ok then m else s.input.byte := by
  rw [devSetDir_snd, State.logBus_devDir, State.setDir_devDir]

/-- A setting of the direction touches neither the port it finds nor the controller. -/
theorem devSetDir_frame (m : Byte) (s : State) :
    (devSetDir m s).2.devPort = s.input.portSeen s.params.exclusive s.devPort ∧
      (devSetDir m s).2.cache = s.cache ∧ (devSetDir m s).2.ready = s.ready := by
  simp [devSetDir_snd]

/-- Settles O27. -/
theorem devSetDirStoresTheMask : Obligations.DevSetDirStoresTheMask := by
  intro m s
  have stored : s.input.ok = true → (devSetDir m s).2.devDir = m := fun hok => by
    rw [devSetDir_devDir, if_pos hok]
  have anyByte : s.input.ok = false → (devSetDir m s).2.devDir = s.input.byte := fun hfail => by
    rw [devSetDir_devDir, if_neg (Bool.eq_false_iff.1 hfail)]
  exact ⟨devSetDir_fst m s, stored, anyByte, devSetDir_frame m s⟩

/-- The other side of `readByte_of_written`: off the condition of R23 the byte is free (log 6). -/
theorem readByte_of_not_written {s : State} (h : s.devDir ≠ 0xFF#8 ∨ s.devWritten = false) :
    readByte s = s.input.byte := by
  rcases h with hdir | hwritten
  · simp [readByte, hdir]
  · simp [readByte, hwritten]

/-- A read, answered or not, leaves the state of `beginDevOp`, but for its mark on the bus. -/
theorem devRead_snd (s : State) :
    (devRead s).2 = s.beginDevOp.logBus (.read (devRead s).1) := rfl

theorem devRead_frame (s : State) :
    (devRead s).2.devPort = s.input.portSeen s.params.exclusive s.devPort ∧
      (devRead s).2.devDir = s.devDir ∧ (devRead s).2.cache = s.cache ∧
      (devRead s).2.ready = s.ready := by
  simp [devRead_snd]

/-- Settles O28: an answered read gives `readByte`, and the condition of R23 says which byte that is. -/
theorem devReadReturnsThePort : Obligations.DevReadReturnsThePort := by
  intro s
  refine ⟨fun hfail => ?_, fun hok hdir hwritten => ?_, fun hok hoff => ?_, devRead_frame s⟩
  · rw [devRead_fail hfail]
  · rw [devRead_ok hok, readByte_of_written hdir hwritten]
  · rw [devRead_ok hok, readByte_of_not_written hoff]

end Sys2Proof.Machine

/-! ## O13: one reply at each end of a command

Up to its last device operation a command has given no result; at its end it gives one. The table of results
(R40) then settles the data byte: no row but `CURRENT_STATE`'s holds a result with one. -/

namespace Sys2Proof.Machine

@[simp] theorem directed_replies (s : State) : (directed s).replies = s.replies := rfl

@[simp] theorem undirected_replies (s : State) : (undirected s).replies = s.replies := rfl

/-- `TURN_ON` and `TURN_OFF` up to their write have given no result. -/
theorem CurrentByte.replies_eq {s s1 : State} {cur : Byte} (h : CurrentByte s cur s1) :
    s1.replies = s.replies := by
  cases h <;> rfl

/-! ### The rows of the table of results (R40) -/

@[simp] theorem mayReply_init {r : Reply} :
    mayReply .init r = true ↔ r = .ok ∨ r = .deviceWriteError ∨ r = .deviceInitError := by
  simp [mayReply, or_assoc]

theorem RelayInstr.mayReply_iff {i : Instr} {idx : Nat} {f : Byte → RelayPos → Byte}
    (h : RelayInstr i idx f) (r : Reply) :
    mayReply i r = true ↔ r = .ok ∨ r = .invalidRelayIndex ∨ r = .deviceWriteError := by
  cases h <;> simp [mayReply, or_assoc]

theorem RelayInstr.ne_currentState {i : Instr} {idx : Nat} {f : Byte → RelayPos → Byte}
    (h : RelayInstr i idx f) : i ≠ .currentState := by
  cases h <;> nofun

/-- A relay command's results are three, none with a data byte. -/
theorem RelayInstr.rdata?_isSome_iff {i : Instr} {idx : Nat} {f : Byte → RelayPos → Byte} {r : Reply}
    (hi : RelayInstr i idx f) (h : mayReply i r = true) :
    r.rdata?.isSome = true ↔ i = .currentState := by
  rcases (hi.mayReply_iff r).1 h with rfl | rfl | rfl <;> simp [Reply.rdata?, hi.ne_currentState]

/-- The table of results gives a data byte to `CURRENT_STATE` and to nothing else. -/
theorem rdata?_isSome_iff_of_mayReply {i : Instr} {r : Reply} (h : mayReply i r = true) :
    r.rdata?.isSome = true ↔ i = .currentState := by
  cases i with
  | init => rcases mayReply_init.1 h with rfl | rfl | rfl <;> simp [Reply.rdata?]
  | turnOn idx => exact (RelayInstr.on idx).rdata?_isSome_iff h
  | turnOff idx => exact (RelayInstr.off idx).rdata?_isSome_iff h
  | currentState => exact iff_of_true h rfl

/-! ### The ends of a command -/

/-- Each of the nine ends gives one result, of its command's row. -/
theorem Ends.exists_reply {s t : State} {i : Instr} (h : Ends s i t) :
    ∃ r, t.replies = s.replies ++ [r] ∧ mayReply i r = true := by
  cases h with
  | initUndirected | initUnread => exact ⟨.deviceInitError, by simp, by simp⟩
  | initUnwritten _ _ hv => exact ⟨.deviceWriteError, by simp [hv.keeps_ready_replies], by simp⟩
  | initOk _ _ hv => exact ⟨.ok, by simp [hv.keeps_ready_replies], by simp⟩
  | currentState => exact ⟨.okData _, rfl, rfl⟩
  | invalidIndex hi => exact ⟨.invalidRelayIndex, rfl, by simp [hi.mayReply_iff]⟩
  | relayUnread hi => exact ⟨.deviceWriteError, by simp, by simp [hi.mayReply_iff]⟩
  | relayUnwritten hi _ _ _ hc =>
    exact ⟨.deviceWriteError, by simp [hc.replies_eq], by simp [hi.mayReply_iff]⟩
  | relayOk hi _ _ _ hc => exact ⟨.ok, by simp [hc.replies_eq], by simp [hi.mayReply_iff]⟩

/-- Settles O13: the result is read off the end the command reached. -/
theorem everyCommandGivesOneResult : Obligations.EveryCommandGivesOneResult := by
  refine ⟨fun i s t h => ?_, rfl, fun _ => rfl, rfl, rfl, rfl⟩
  obtain ⟨r, hreplies, hrow⟩ := (exec_ends h).exists_reply
  exact ⟨r, hreplies, hrow, rdata?_isSome_iff_of_mayReply hrow⟩

end Sys2Proof.Machine

/-! ## O10: the map of the command words

A word is its two fields put together, and both directions go through the fields: the decoder reads them back
(R35 to R37), and the number of an encoded word is computed from them. -/

namespace Sys2Proof

/-- R35: a word is `op` above the 4-bit field. -/
theorem opField_append_extractLsb' (w : CmdWord) : opField w ++ w.extractLsb' 0 4 = w :=
  BitVec.extractLsb'_append_extractLsb'

@[simp] theorem opField_append (op : BitVec 2) (x : BitVec 4) : opField (op ++ x) = op :=
  BitVec.extractLsb'_append_eq_left

@[simp] theorem idxField_append (op : BitVec 2) (x : BitVec 4) : idxField (op ++ x) = x.toNat :=
  congrArg BitVec.toNat BitVec.extractLsb'_append_eq_right

theorem decode_init (x : BitVec 4) : decode (0b00#2 ++ x) = .init := by
  simp [decode]

theorem decode_turnOn (x : BitVec 4) : decode (0b01#2 ++ x) = .turnOn x.toNat := by
  simp [decode]

theorem decode_turnOff (x : BitVec 4) : decode (0b10#2 ++ x) = .turnOff x.toNat := by
  simp [decode]

theorem decode_currentState (x : BitVec 4) : decode (0b11#2 ++ x) = .currentState := by
  simp [decode]

/-- The number of a word, from its fields: an index that fits does not reach into `op`. -/
theorem assembleFields_toNat (op : BitVec 2) {idx : Nat} (h : idx ≤ 15) :
    (assembleFields op idx).toNat = 0x10 * op.toNat + idx := by
  have hfits : idx < 2 ^ 4 := by omega
  rw [assembleFields, BitVec.toNat_append, BitVec.toNat_ofNat, Nat.mod_eq_of_lt hfits,
    ← Nat.shiftLeft_add_eq_or_of_lt hfits, Nat.shiftLeft_eq, Nat.mul_comm]

theorem encode_turnOn_toNat {idx : Nat} (h : idx ≤ 15) : (encode (.turnOn idx)).toNat = 0x10 + idx :=
  assembleFields_toNat 0b01#2 h

theorem encode_turnOff_toNat {idx : Nat} (h : idx ≤ 15) :
    (encode (.turnOff idx)).toNat = 0x20 + idx :=
  assembleFields_toNat 0b10#2 h

end Sys2Proof

namespace Sys2Proof.Machine

/-- R39, R72: a ready controller rejects an invalid index before it asks anything of the device. -/
theorem relayCommand_invalidIndex {apply : Byte → RelayPos → Byte} {idx : Nat} {s : State}
    (hready : s.ready = true) (hidx : idx = 0 ∨ 9 ≤ idx) :
    relayCommand apply idx s = .next (s.pushReply .invalidRelayIndex) := by
  rw [relayCommand, relayPos?_of_invalid hidx, ifReady_eq_next]
  exact ⟨hready, rfl⟩

/-- Settles O10. -/
theorem commandMap : Obligations.CommandMap := by
  refine ⟨fun w => ⟨opField w, w.extractLsb' 0 4, (opField_append_extractLsb' w).symm⟩,
    fun x => ⟨decode_init x, decode_turnOn x, decode_turnOff x, decode_currentState x⟩, rfl, rfl,
    fun idx h => ⟨encode_turnOn_toNat h, encode_turnOff_toNat h⟩, fun x s hready hidx => ?_⟩
  rw [decode_turnOn, decode_turnOff]
  exact ⟨relayCommand_invalidIndex hready hidx, relayCommand_invalidIndex hready hidx⟩

end Sys2Proof.Machine

/-! ## O12: the assembler

A line is cut at the first blank or parenthesis, its operand is the number whose decimal digits stand there,
and an operand that fits is encoded. Each of the three is said once, for every name and every number. -/

namespace Sys2Proof

/-! ### Decimal operands -/

theorem digitValue_of_isDigit {c : Char} (h : c.isDigit = true) :
    digitValue c = some (c.toNat - '0'.toNat) := by
  have hrange : '0' ≤ c ∧ c ≤ '9' := by simpa [Char.isDigit, Char.le_def] using h
  rw [digitValue, if_pos hrange]
  rfl

/-- On digits the model's reader is the library's. -/
theorem decimalFrom_of_digits {cs : List Char} (h : ∀ c ∈ cs, c.isDigit = true) (acc : Nat) :
    decimalFrom acc cs = some (Nat.ofDigitChars 10 cs acc) := by
  induction cs generalizing acc with
  | nil => rfl
  | cons c cs ih =>
    obtain ⟨hc, hcs⟩ := List.forall_mem_cons.1 h
    rw [decimalFrom, digitValue_of_isDigit hc, Nat.ofDigitChars_cons, Nat.mul_comm 10 acc]
    exact ih hcs _

/-- R41: the decimal digits of a number are read as that number. -/
theorem decimal_toDigits (n : Nat) : decimal (Nat.toDigits 10 n) = some n := by
  have hdigits : ∀ c ∈ Nat.toDigits 10 n, c.isDigit = true := fun _ =>
    Nat.isDigit_of_mem_toDigits (by decide) (by decide)
  have hfrom : decimalFrom 0 (Nat.toDigits 10 n) = some n := by
    rw [decimalFrom_of_digits hdigits, Nat.ofDigitChars_ten_toDigits]
  cases hd : Nat.toDigits 10 n with
  | nil => exact absurd hd Nat.toDigits_ne_nil
  | cons c cs => rwa [hd] at hfrom

/-! ### Lines with an operand -/

/-- Characters that can stand as a name in a line: none of them ends it. -/
def IsName (name : List Char) : Prop := ∀ c ∈ name, c ≠ ' ' ∧ c ≠ '('

/-- The blank or the parenthesis after a name is where the line is cut. -/
theorem span_name {name : List Char} (hname : IsName name) {c : Char} (hc : c = ' ' ∨ c = '(')
    (rest : List Char) :
    (name ++ c :: rest).span (fun c => c ≠ ' ' && c ≠ '(') = (name, c :: rest) := by
  have hall : ∀ x ∈ name, (x ≠ ' ' && x ≠ '(') = true := fun x hx => by simpa using hname x hx
  rw [List.span_eq_takeWhile_dropWhile, List.takeWhile_append_of_pos hall,
    List.dropWhile_append_of_pos hall]
  rcases hc with rfl | rfl <;> simp

/-- `NAME n`. -/
theorem splitLine_mnemonic {name : List Char} (hname : IsName name) (n : Nat) :
    splitLine (name ++ ' ' :: Nat.toDigits 10 n) = some ⟨name, false, some n⟩ := by
  rw [splitLine, span_name hname (.inl rfl)]
  simp [decimal_toDigits]

/-- `name(n)`. -/
theorem splitLine_call {name : List Char} (hname : IsName name) (n : Nat) :
    splitLine (name ++ '(' :: (Nat.toDigits 10 n ++ [')'])) = some ⟨name, true, some n⟩ := by
  rw [splitLine, span_name hname (.inr rfl)]
  simp [decimal_toDigits]

/-- An accepted line gives the word of its command. -/
theorem assemble_of_splitLine {line : String} {l : AsmLine} {i : Instr}
    (hsplit : splitLine line.toList = some l) (hparse : parseLine l = some i) :
    assemble line = some (encode i) := by
  rw [assemble, hsplit]
  exact congrArg (Option.map encode) hparse

theorem assemble_mnemonic {lead : String} {name : List Char} {n : Nat} {i : Instr}
    (hlead : lead.toList = name ++ [' ']) (hname : IsName name)
    (hparse : parseLine ⟨name, false, some n⟩ = some i) :
    assemble (lead ++ toString n) = some (encode i) := by
  refine assemble_of_splitLine ?_ hparse
  rw [String.toList_append, hlead, Nat.toString_eq_repr, Nat.toList_repr, List.append_assoc]
  exact splitLine_mnemonic hname n

theorem assemble_call {lead : String} {name : List Char} {n : Nat} {i : Instr}
    (hlead : lead.toList = name ++ ['(']) (hname : IsName name)
    (hparse : parseLine ⟨name, true, some n⟩ = some i) :
    assemble (lead ++ toString n ++ ")") = some (encode i) := by
  refine assemble_of_splitLine ?_ hparse
  rw [String.toList_append, String.toList_append, hlead, Nat.toString_eq_repr, Nat.toList_repr,
    List.append_assoc, List.append_assoc]
  exact splitLine_call hname n

/-! ### Operands that fit, and those that do not -/

theorem asmIndex_of_le {n : Nat} (h : n ≤ 15) : asmIndex n = some n := if_pos h

theorem asmIndex_of_gt {n : Nat} (h : 15 < n) : asmIndex n = none := if_neg (by omega)

/-- `TURN_ON` in both spellings (R41). -/
theorem parseLine_turnOn (call : Bool) {n : Nat} (h : n ≤ 15) :
    parseLine ⟨(if call then "turn_on" else "TURN_ON").toList, call, some n⟩ = some (.turnOn n) := by
  simp [parseLine, asmIndex_of_le h]

/-- `TURN_OFF` in both spellings; neither is one of `TURN_ON`. -/
theorem parseLine_turnOff (call : Bool) {n : Nat} (h : n ≤ 15) :
    parseLine ⟨(if call then "turn_off" else "TURN_OFF").toList, call, some n⟩ =
      some (.turnOff n) := by
  cases call <;> simp [parseLine, asmIndex_of_le h]

/-- R41: whatever the name, an operand above 15 is refused. -/
theorem parseLine_of_gt (name : List Char) (call : Bool) {n : Nat} (h : 15 < n) :
    parseLine ⟨name, call, some n⟩ = none := by
  simp [parseLine, asmIndex_of_gt h]

/-! ### The words -/

theorem encode_turnOn_eq_ofNat {n : Nat} (h : n ≤ 15) :
    encode (.turnOn n) = BitVec.ofNat 6 (0x10 + n) := by
  rw [← encode_turnOn_toNat h, BitVec.ofNat_toNat, BitVec.setWidth_eq]

theorem encode_turnOff_eq_ofNat {n : Nat} (h : n ≤ 15) :
    encode (.turnOff n) = BitVec.ofNat 6 (0x20 + n) := by
  rw [← encode_turnOff_toNat h, BitVec.ofNat_toNat, BitVec.setWidth_eq]

theorem assemble_turnOn {n : Nat} (h : n ≤ 15) :
    assemble ("TURN_ON " ++ toString n) = some (encode (.turnOn n)) ∧
    assemble ("turn_on(" ++ toString n ++ ")") = some (encode (.turnOn n)) :=
  ⟨assemble_mnemonic (name := "TURN_ON".toList) rfl (by simp [IsName]) (parseLine_turnOn false h),
    assemble_call (name := "turn_on".toList) rfl (by simp [IsName]) (parseLine_turnOn true h)⟩

theorem assemble_turnOff {n : Nat} (h : n ≤ 15) :
    assemble ("TURN_OFF " ++ toString n) = some (encode (.turnOff n)) ∧
    assemble ("turn_off(" ++ toString n ++ ")") = some (encode (.turnOff n)) :=
  ⟨assemble_mnemonic (name := "TURN_OFF".toList) rfl (by simp [IsName]) (parseLine_turnOff false h),
    assemble_call (name := "turn_off".toList) rfl (by simp [IsName]) (parseLine_turnOff true h)⟩

/-- Settles O12: the lines without an operand and the two negative ones are single lines. -/
theorem assemblerGivesTheWords : Obligations.AssemblerGivesTheWords := by
  refine ⟨by decide, by decide, by decide, by decide, fun n h => ?_,
    fun name call n h => parseLine_of_gt name call h, by decide, by decide⟩
  obtain ⟨hon, hon'⟩ := assemble_turnOn h
  obtain ⟨hoff, hoff'⟩ := assemble_turnOff h
  rw [← encode_turnOn_eq_ofNat h, ← encode_turnOff_eq_ofNat h]
  exact ⟨hon, hon', hoff, hoff'⟩

end Sys2Proof

/-! ## O2, O3, O4, O47: the masks and the two functions of RelayBank

The masks are the library's `twoPow` and its complement, and their bits are known at a bit position, so the
rules about an index follow once the index is turned into its position. What R47, R48 and R52 claim of
`applyOn` and `applyOff` beyond their formulas holds of every function that `ForcesOnly` its relay. -/

namespace Sys2Proof.Machine

theorem relayPos?_val {idx : Nat} {p : RelayPos} (h : relayPos? idx = some p) : p.val = idx - 1 := by
  rw [relayPos?_eq_some.1 h, RelayPos.index, Nat.add_sub_cancel]

/-! ### The masks -/

theorem bitMaskOn_eq_twoPow (p : RelayPos) : bitMaskOn p = BitVec.twoPow 8 p.val :=
  (BitVec.twoPow_eq 8 p.val).symm

theorem bitMaskOn_toNat (p : RelayPos) : (bitMaskOn p).toNat = 2 ^ p.val := by
  rw [bitMaskOn_eq_twoPow, BitVec.toNat_twoPow_of_lt p.isLt]

theorem bitMaskOn_eq_ofNat (p : RelayPos) : bitMaskOn p = BitVec.ofNat 8 (2 ^ p.val) := by
  rw [← bitMaskOn_toNat, BitVec.ofNat_toNat, BitVec.setWidth_eq]

/-- Settles O2. -/
theorem maskOnHasExactlyItsBit : Obligations.MaskOnHasExactlyItsBit := by
  intro idx p h
  rw [← relayPos?_val h]
  refine ⟨bitMaskOn_eq_ofNat p, bitMaskOn_toNat p, fun j _ => ?_⟩
  rw [bitMaskOn_getLsbD, decide_eq_true_iff]

/-- Settles O3: XOR with 0xFF and subtraction from it are both the complement. -/
theorem maskOffLacksExactlyItsBit : Obligations.MaskOffLacksExactlyItsBit := by
  intro idx p h
  rw [← relayPos?_val h]
  refine ⟨BitVec.xor_allOnes.symm, (BitVec.allOnes_sub_eq_not (bitMaskOn p)).symm, fun j hj => ?_⟩
  rw [bitMaskOff_getLsbD p hj, decide_eq_false_iff_not, not_not]

/-! ### Functions that force only their relay -/

namespace ForcesOnly

variable {apply : Byte → RelayPos → Byte} {on : Bool}

/-- R47, R48: a second application finds every relay as it would leave it. -/
theorem idempotent (h : ForcesOnly apply on) (c : Byte) (p : RelayPos) :
    apply (apply c p) p = apply c p := by
  refine byte_ext fun q => ?_
  by_cases hq : q = p
  · rw [hq, (h (apply c p) p).1, (h c p).1]
  · exact (h (apply c p) p).2 q hq

/-- R52 in the notation of bits and indices: every bit of a byte is a relay. -/
theorem getLsbD_of_relayPos? (h : ForcesOnly apply on) (c : Byte) {idx : Nat} {p : RelayPos}
    (hp : relayPos? idx = some p) :
    (apply c p).getLsbD (idx - 1) = on ∧
    ∀ j, j < 8 → j ≠ idx - 1 → (apply c p).getLsbD j = c.getLsbD j := by
  obtain ⟨forced, kept⟩ := h c p
  rw [← relayPos?_val hp]
  exact ⟨forced, fun j hj hne => kept ⟨j, hj⟩ (Fin.ne_of_val_ne hne)⟩

end ForcesOnly

/-- Settles O4. -/
theorem applyForcesOneBitAndKeepsSeven : Obligations.ApplyForcesOneBitAndKeepsSeven := by
  intro c p
  obtain ⟨forcedOn, keptOn⟩ := applyOn_forcesOnly c p
  obtain ⟨forcedOff, keptOff⟩ := applyOff_forcesOnly c p
  exact ⟨rfl, rfl, forcedOn, forcedOff, fun q hq => ⟨keptOn q hq, keptOff q hq⟩,
    applyOn_forcesOnly.idempotent c p, applyOff_forcesOnly.idempotent c p⟩

/-- Settles O47. -/
theorem forcingAndPreservation : Obligations.ForcingAndPreservation := by
  refine ⟨applyOn_forcesOnly, applyOff_forcesOnly, fun c idx p hp => ?_⟩
  obtain ⟨forcedOn, keptOn⟩ := applyOn_forcesOnly.getLsbD_of_relayPos? c hp
  obtain ⟨forcedOff, keptOff⟩ := applyOff_forcesOnly.getLsbD_of_relayPos? c hp
  exact ⟨forcedOn, forcedOff, fun j hj hne => ⟨keptOn j hj hne, keptOff j hj hne⟩⟩

end Sys2Proof.Machine

/-! ## O14, O29 to O33, O40: a command's ends, whole

`exec_ends` says that a command which completes reaches one of the nine ends; here the converse: each end is
the command's answer under the conditions of that end. The rules about a whole next state then name the end
and compare two states field by field. -/

namespace Sys2Proof.Machine

/-! ### States, field by field -/

@[ext] theorem State.ext {s t : State} (cache : s.cache = t.cache) (ready : s.ready = t.ready)
    (devPort : s.devPort = t.devPort) (devDir : s.devDir = t.devDir)
    (devWritten : s.devWritten = t.devWritten) (devSilent : s.devSilent = t.devSilent)
    (params : s.params = t.params) (events : s.events = t.events) (inputs : s.inputs = t.inputs)
    (drawn : s.drawn = t.drawn) (bus : s.bus = t.bus) (replies : s.replies = t.replies) : s = t := by
  cases s; cases t; simp_all

@[simp] theorem directed_cache (s : State) : (directed s).cache = s.cache := rfl
@[simp] theorem directed_ready (s : State) : (directed s).ready = s.ready := rfl
@[simp] theorem directed_devPort (s : State) :
    (directed s).devPort = s.input.portSeen s.params.exclusive s.devPort := rfl
@[simp] theorem directed_devDir (s : State) : (directed s).devDir = 0xFF#8 := rfl
@[simp] theorem directed_devWritten (s : State) : (directed s).devWritten = s.devWritten := rfl
@[simp] theorem directed_devSilent (s : State) : (directed s).devSilent = s.devSilent := rfl
@[simp] theorem directed_params (s : State) : (directed s).params = s.params := rfl
@[simp] theorem directed_events (s : State) : (directed s).events = s.events := rfl
@[simp] theorem directed_inputs (s : State) : (directed s).inputs = s.inputs.tail := rfl
@[simp] theorem directed_drawn (s : State) : (directed s).drawn = s.drawn + 1 := rfl
@[simp] theorem directed_bus (s : State) : (directed s).bus = s.bus ++ [.setDir 0xFF#8 true] := rfl

/-- The setting of the direction has used one input. -/
@[simp] theorem inputAt_directed (s : State) (k : Nat) : (directed s).inputAt k = s.inputAt (k + 1) :=
  State.inputAt_beginDevOp s k

/-- So has a device operation that leaves the device as it finds it. -/
@[simp] theorem input_logDevOp (s : State) (e : BusEvent) :
    (s.beginDevOp.logBus e).input = s.inputAt 1 :=
  State.inputAt_beginDevOp s 0

@[simp] theorem input_directed (s : State) : (directed s).input = s.inputAt 1 := inputAt_directed s 0

/-- Once all pins are outputs, only whether this block has written decides the byte of a read (R23). -/
theorem readByte_directed (s : State) :
    readByte (directed s) =
      if s.devWritten then
        (s.inputAt 1).portSeen s.params.exclusive ((s.inputAt 0).portSeen s.params.exclusive s.devPort)
      else (s.inputAt 1).byte := by
  cases hw : s.devWritten with
  | true => simp [readByte_of_written (directed_devDir s) hw, State.input_eq s]
  | false => simp [readByte_of_not_written (s := directed s) (.inr hw)]

/-! ### Each end is an answer of `exec` -/

theorem RelayInstr.exec_eq {i : Instr} {idx : Nat} {f : Byte → RelayPos → Byte}
    (h : RelayInstr i idx f) (s : State) : exec i s = relayCommand f idx s := by
  cases h <;> rfl

theorem execInit_of_initRun {s t : State} {r : Reply} (hs : s.devSilent = false)
    (h : initRun s = (r, t)) : exec .init s = .next (t.pushReply r) :=
  execInit_eq_next.2 ⟨hs, by rw [h]⟩

/-- Whatever its source, `INIT` stores the initial byte. -/
theorem InitialByte.initRun_eq {s s1 : State} {v : Byte} (h : InitialByte s v s1)
    (ho : s.input.ok = true) : initRun s = initStore v s1 := by
  cases h with
  | constant hp => exact initRun_constant ho hp
  | resync hp hi => exact initRun_read_ok ho hp hi

theorem relayCommand_of_valid {f : Byte → RelayPos → Byte} {idx : Nat} {p : RelayPos} {s : State}
    (hr : s.ready = true) (hp : relayPos? idx = some p) :
    relayCommand f idx s = readModifyWrite f p s := by
  simp [relayCommand, ifReady, hr, hp]

theorem readModifyWrite_deviceRead {f : Byte → RelayPos → Byte} {p : RelayPos} {s : State}
    (hs : s.devSilent = false) (hm : s.params.rmwSource = .deviceRead) :
    readModifyWrite f p s = deliver (readThenWrite f p s) := by
  simp [readModifyWrite, hm, ifAnswering, hs]

/-- Whatever its source, a relay command writes back the byte computed from the current one. -/
theorem CurrentByte.readModifyWrite_eq {s s1 : State} {cur : Byte} (h : CurrentByte s cur s1)
    (hs : s.devSilent = false) (f : Byte → RelayPos → Byte) (p : RelayPos) :
    readModifyWrite f p s = deliver (writeBack (f cur p) s1) := by
  cases h with
  | cached hm hc => simp [readModifyWrite, hm, readCache, hc, ifAnswering, hs]
  | read hm hi => simp [readModifyWrite_deviceRead hs hm, readThenWrite, devRead_ok hi]

/-- The converse of `exec_ends`. -/
theorem Ends.exec_eq {s t : State} {i : Instr} (h : Ends s i t) : exec i s = .next t := by
  cases h with
  | initUndirected hs ho => exact execInit_of_initRun hs (initRun_undirected ho)
  | initUnread hs ho hp hi => exact execInit_of_initRun hs (initRun_read_fail ho hp hi)
  | initUnwritten hs ho hv hw =>
    exact execInit_of_initRun hs ((hv.initRun_eq ho).trans (initStore_fail _ hw))
  | initOk hs ho hv hw =>
    exact execInit_of_initRun hs ((hv.initRun_eq ho).trans (initStore_ok _ hw))
  | currentState hr hc => exact execCurrentState_eq_next.2 ⟨hr, _, hc, rfl⟩
  | invalidIndex hi hr hp =>
    have hidx := relayPos?_eq_none.1 hp
    rw [hi.exec_eq]
    exact relayCommand_invalidIndex hr (by omega)
  | relayUnread hi hr hs hp hm ho =>
    rw [hi.exec_eq, relayCommand_of_valid hr hp, readModifyWrite_deviceRead hs hm, readThenWrite,
      devRead_fail ho]
    rfl
  | relayUnwritten hi hr hs hp hc hw =>
    rw [hi.exec_eq, relayCommand_of_valid hr hp, hc.readModifyWrite_eq hs, writeBack_fail _ hw]
    rfl
  | relayOk hi hr hs hp hc hw =>
    rw [hi.exec_eq, relayCommand_of_valid hr hp, hc.readModifyWrite_eq hs, writeBack_ok _ hw]
    rfl

/-- What `exec` answers is the end reached, in whatever form the state of that end is written. -/
theorem Ends.exec_eq_of_eq {s t u : State} {i : Instr} (h : Ends s i t) (e : t = u) :
    exec i s = .next u := e ▸ h.exec_eq

/-! ### INIT -/

/-- A failed setting of the direction ends `INIT` before the two variants part (R57, R63). -/
theorem exec_init_undirected {s : State} (hs : s.devSilent = false) (ho : (s.inputAt 0).ok = false) :
    exec .init s = .next { s with
      ready := false, cache := none, devDir := (s.inputAt 0).byte,
      devPort := (s.inputAt 0).portSeen s.params.exclusive s.devPort,
      inputs := s.inputs.drop 1, drawn := s.drawn + 1,
      bus := s.bus ++ [.setDir 0xFF#8 false], replies := s.replies ++ [.deviceInitError] } := by
  refine (Ends.initUndirected hs ho).exec_eq_of_eq ?_
  rw [List.drop_one]
  rfl

/-- Settles O29. -/
theorem initBaseline : Obligations.InitBaseline := by
  intro s hs hp
  have constant := InitialByte.constant hp
  refine ⟨exec_init_undirected hs, fun ho hw => ?_, fun ho hw => ?_⟩
  · refine (Ends.initUnwritten hs ho constant (input_directed s ▸ hw)).exec_eq_of_eq ?_
    ext1 <;> simp [← List.drop_one, State.input_eq s]
  · refine (Ends.initOk hs ho constant (input_directed s ▸ hw)).exec_eq_of_eq ?_
    ext1 <;> simp [← List.drop_one]

/-- Settles O30. -/
theorem initResync : Obligations.InitResync := by
  intro s hs hp i0 i1 i2 port0 port1 port2 v
  have hv : readByte (directed s) = v := readByte_directed s
  refine ⟨exec_init_undirected hs, fun ho hi => ?_, fun ho hi hw => ?_, fun ho hi hw => ?_⟩
  · refine (Ends.initUnread hs ho hp (input_directed s ▸ hi)).exec_eq_of_eq ?_
    ext1 <;> simp [← List.drop_one, State.input_eq s, i0, i1, port0, port1]
  · have resync := InitialByte.resync hp (input_directed s ▸ hi)
    refine (Ends.initUnwritten hs ho resync ?_).exec_eq_of_eq ?_
    · simpa using hw
    · ext1 <;> simp [← List.drop_one, State.input_eq s, hv, i0, i1, i2, port0, port1, port2]
  · have resync := InitialByte.resync hp (input_directed s ▸ hi)
    refine (Ends.initOk hs ho resync ?_).exec_eq_of_eq ?_
    · simpa using hw
    · ext1 <;> simp [← List.drop_one, hv]

/-! ### TURN_ON, TURN_OFF

Each rule is proved once, for the RelayBank function of the command; the spec's formulas of the new byte are
that function at the index. -/

theorem applyOn_of_index {idx : Nat} {p : RelayPos} (h : relayPos? idx = some p) (c : Byte) :
    applyOn c p = c ||| (1#8 <<< (idx - 1)) := by
  rw [← relayPos?_val h]
  rfl

theorem applyOff_of_index {idx : Nat} {p : RelayPos} (h : relayPos? idx = some p) (c : Byte) :
    applyOff c p = c &&& ~~~(1#8 <<< (idx - 1)) := by
  rw [← relayPos?_val h]
  rfl

theorem RelayInstr.exec_invalidIndex {i : Instr} {idx : Nat} {f : Byte → RelayPos → Byte} {s : State}
    (h : RelayInstr i idx f) (hr : s.ready = true) (hidx : idx = 0 ∨ 9 ≤ idx) :
    exec i s = .next { s with replies := s.replies ++ [.invalidRelayIndex] } :=
  (Ends.invalidIndex h hr (relayPos?_of_invalid hidx)).exec_eq

section Cached

variable {i : Instr} {idx : Nat} {f : Byte → RelayPos → Byte} {s : State} {p : RelayPos} {cur new : Byte}

/-- R58, R59: an accepted write of the byte computed from the cache. -/
theorem RelayInstr.exec_cached_ok (h : RelayInstr i idx f) (hr : s.ready = true)
    (hp : relayPos? idx = some p) (hm : s.params.rmwSource = .cache) (hc : s.cache = some cur)
    (hs : s.devSilent = false) (hnew : f cur p = new) (hw : s.input.ok = true) :
    exec i s = .next { s with
      cache := some new, devPort := new, devWritten := true,
      inputs := s.inputs.tail, drawn := s.drawn + 1,
      bus := s.bus ++ [.write new true], replies := s.replies ++ [.ok] } :=
  hnew ▸ (Ends.relayOk h hr hs hp (.cached hm hc) hw).exec_eq

/-- R58, R59: a failed one. -/
theorem RelayInstr.exec_cached_fail (h : RelayInstr i idx f) (hr : s.ready = true)
    (hp : relayPos? idx = some p) (hm : s.params.rmwSource = .cache) (hc : s.cache = some cur)
    (hs : s.devSilent = false) (hnew : f cur p = new) (hw : s.input.ok = false) :
    exec i s = .next { s with
      devPort := s.input.portSeen s.params.exclusive s.devPort,
      inputs := s.inputs.tail, drawn := s.drawn + 1,
      bus := s.bus ++ [.write new false], replies := s.replies ++ [.deviceWriteError] } :=
  hnew ▸ (Ends.relayUnwritten h hr hs hp (.cached hm hc) hw).exec_eq

end Cached

/-- Settles O31. -/
theorem turnOnBaseline : Obligations.TurnOnBaseline := by
  intro idx s
  have on := RelayInstr.on idx
  refine ⟨exec_eq_notReady nofun, on.exec_invalidIndex, fun cur hr h1 h8 hm hc hs => ?_⟩
  obtain ⟨p, hp, -⟩ := relayPos?_of_valid h1 h8
  have hnew := applyOn_of_index hp cur
  exact ⟨on.exec_cached_ok hr hp hm hc hs hnew, on.exec_cached_fail hr hp hm hc hs hnew⟩

/-- Settles O32. -/
theorem turnOffBaseline : Obligations.TurnOffBaseline := by
  intro idx s
  have off := RelayInstr.off idx
  refine ⟨exec_eq_notReady nofun, off.exec_invalidIndex, fun cur hr h1 h8 hm hc hs => ?_⟩
  obtain ⟨p, hp, -⟩ := relayPos?_of_valid h1 h8
  have hnew := applyOff_of_index hp cur
  exact ⟨off.exec_cached_ok hr hp hm hc hs hnew, off.exec_cached_fail hr hp hm hc hs hnew⟩

/-- The two commands by constructor and mask, as R62 and R85 are stated, are the two relay instructions. -/
theorem relayInstr_of_mask {command : Nat → Instr} {mask : Byte → Byte → Byte}
    (h : (command = .turnOn ∧ mask = fun cur bit => cur ||| bit) ∨
      (command = .turnOff ∧ mask = fun cur bit => cur &&& ~~~bit))
    {idx : Nat} {p : RelayPos} (hp : relayPos? idx = some p) :
    ∃ f, RelayInstr (command idx) idx f ∧ ∀ c, f c p = mask c (1#8 <<< (idx - 1)) := by
  rcases h with ⟨rfl, rfl⟩ | ⟨rfl, rfl⟩
  · exact ⟨applyOn, .on idx, applyOn_of_index hp⟩
  · exact ⟨applyOff, .off idx, applyOff_of_index hp⟩

/-- Settles O33. -/
theorem readBeforeWrite : Obligations.ReadBeforeWrite := by
  intro command mask hcommand idx s hr h1 h8 hm hs i0 i1 port0 port1 cur new
  obtain ⟨p, hp, -⟩ := relayPos?_of_valid h1 h8
  obtain ⟨f, hi, hf⟩ := relayInstr_of_mask hcommand hp
  have hcur : readByte s = cur := rfl
  have hnew : f cur p = new := hf cur
  refine ⟨fun ho => ?_, fun ho hw => ?_, fun ho hw => ?_⟩
  · refine (Ends.relayUnread hi hr hs hp hm ho).exec_eq_of_eq ?_
    rw [List.drop_one]
    rfl
  · have read := CurrentByte.read hm ho
    refine (Ends.relayUnwritten hi hr hs hp read (input_logDevOp s _ ▸ hw)).exec_eq_of_eq ?_
    ext1 <;> simp [← List.drop_one, State.input_eq s, hcur, hnew, i0, i1, port0, port1]
  · have read := CurrentByte.read hm ho
    refine (Ends.relayOk hi hr hs hp read (input_logDevOp s _ ▸ hw)).exec_eq_of_eq ?_
    ext1 <;> simp [← List.drop_one, hcur, hnew]

/-! ### CURRENT_STATE -/

/-- Settles O40. -/
theorem currentStateReturnsTheCache : Obligations.CurrentStateReturnsTheCache := by
  intro s
  exact ⟨fun v hr hc => (Ends.currentState hr hc).exec_eq, exec_eq_notReady nofun⟩

/-! ### A presented word -/

theorem step_command {s : State} {w : CmdWord} {rest : List EnvEvent}
    (h : s.events = .command w :: rest) : step s = exec (decode w) { s with events := rest } := by
  rw [step, takeEvent_cons h]

/-- Settles O14. -/
theorem stepRunsTheDecodedCommand : Obligations.StepRunsTheDecodedCommand :=
  fun _ _ _ h => step_command h

end Sys2Proof.Machine

/-! ## O23: the frame of a command

What no command touches but by using inputs holds across one device operation and of everything a command
does between two, so along each of the nine ends. `READY` and the parameters are settled above (O21, O24). -/

namespace Sys2Proof.Machine

/-- `t` is reached from `s` with the waiting events and the silence of the device kept, and of the placed
inputs those lost that the counter counts. -/
structure KeepsBoundary (s t : State) : Prop where
  events : t.events = s.events
  devSilent : t.devSilent = s.devSilent
  used : ∃ n, t.drawn = s.drawn + n ∧ t.inputs = s.inputs.drop n

namespace KeepsBoundary

/-- Between two device operations. -/
theorem of_same {s t : State} (he : t.events = s.events) (hs : t.devSilent = s.devSilent)
    (hi : t.inputs = s.inputs) (hd : t.drawn = s.drawn) : KeepsBoundary s t :=
  ⟨he, hs, 0, hd, hi⟩

/-- Across one device operation. -/
theorem of_devOp {s t : State} (he : t.events = s.events) (hs : t.devSilent = s.devSilent)
    (hi : t.inputs = s.inputs.tail) (hd : t.drawn = s.drawn + 1) : KeepsBoundary s t :=
  ⟨he, hs, 1, hd, hi.trans List.drop_one.symm⟩

theorem trans {s t u : State} (h : KeepsBoundary s t) (k : KeepsBoundary t u) : KeepsBoundary s u := by
  obtain ⟨m, hdrawn, hinputs⟩ := h.used
  obtain ⟨n, kdrawn, kinputs⟩ := k.used
  refine ⟨k.events.trans h.events, k.devSilent.trans h.devSilent, m + n, ?_, ?_⟩
  · rw [kdrawn, hdrawn, Nat.add_assoc]
  · rw [kinputs, hinputs, List.drop_drop]

theorem inputs_eq {s t : State} (h : KeepsBoundary s t) :
    t.inputs = s.inputs.drop (t.drawn - s.drawn) := by
  obtain ⟨n, hdrawn, hinputs⟩ := h.used
  rw [hdrawn, Nat.add_sub_cancel_left, hinputs]

end KeepsBoundary

theorem directed_keepsBoundary (s : State) : KeepsBoundary s (directed s) := .of_devOp rfl rfl rfl rfl

theorem InitialByte.keepsBoundary {s s1 : State} {v : Byte} (h : InitialByte s v s1) :
    KeepsBoundary s s1 := by
  cases h with
  | constant => exact directed_keepsBoundary s
  | resync => exact (directed_keepsBoundary s).trans (.of_devOp rfl rfl rfl rfl)

theorem CurrentByte.keepsBoundary {s s1 : State} {cur : Byte} (h : CurrentByte s cur s1) :
    KeepsBoundary s s1 := by
  cases h with
  | cached => exact .of_same rfl rfl rfl rfl
  | read => exact .of_devOp rfl rfl rfl rfl

theorem Ends.keepsBoundary {s t : State} {i : Instr} (h : Ends s i t) : KeepsBoundary s t := by
  cases h with
  | currentState | invalidIndex => exact .of_same rfl rfl rfl rfl
  | initUndirected | relayUnread => exact .of_devOp rfl rfl rfl rfl
  | initUnread => exact (directed_keepsBoundary s).trans (.of_devOp rfl rfl rfl rfl)
  | initUnwritten _ _ hv | initOk _ _ hv => exact hv.keepsBoundary.trans (.of_devOp rfl rfl rfl rfl)
  | relayUnwritten _ _ _ _ hc | relayOk _ _ _ _ hc =>
    exact hc.keepsBoundary.trans (.of_devOp rfl rfl rfl rfl)

theorem CurrentByte.devDir_eq {s s1 : State} {cur : Byte} (h : CurrentByte s cur s1) :
    s1.devDir = s.devDir := by
  cases h <;> rfl

theorem Ends.devDir_eq_of_ne_init {s t : State} {i : Instr} (h : Ends s i t) (hi : i ≠ .init) :
    t.devDir = s.devDir := by
  cases h with
  | initUndirected | initUnread | initUnwritten | initOk => exact absurd rfl hi
  | currentState | invalidIndex | relayUnread => rfl
  | relayUnwritten _ _ _ _ hc | relayOk _ _ _ _ hc => simpa using hc.devDir_eq

/-- `CURRENT_STATE` only gives its result (R60). -/
theorem Ends.eq_of_currentState {s t : State} (h : Ends s .currentState t) :
    t = { s with replies := t.replies } := by
  cases h with
  | currentState => rfl
  | invalidIndex hi | relayUnread hi | relayUnwritten hi | relayOk hi => nomatch hi

/-- Settles O23. -/
theorem commandFrame : Obligations.CommandFrame := by
  intro i s t h
  have ends := exec_ends h
  have boundary := ends.keepsBoundary
  refine ⟨ends.keepsHistory.params, boundary.events, boundary.devSilent, boundary.inputs_eq,
    fun hi => ⟨ends.ready_eq_of_ne_init hi, ends.devDir_eq_of_ne_init hi⟩, fun hi => ?_⟩
  subst hi
  exact ends.eq_of_currentState

end Sys2Proof.Machine

/-! ## O34: the rejection of an index

Among the nine ends only one gives `InvalidRelayIndex`, and it issues no device operation. Conversely a relay
command that completes was ready, and a ready controller rejects an invalid index. -/

namespace Sys2Proof.Machine

theorem exists_relayInstr_iff {i : Instr} {idx : Nat} :
    (∃ f, RelayInstr i idx f) ↔ i = .turnOn idx ∨ i = .turnOff idx := by
  constructor
  · rintro ⟨f, hi⟩
    cases hi with
    | on => exact .inl rfl
    | off => exact .inr rfl
  · rintro (rfl | rfl)
    · exact ⟨applyOn, .on idx⟩
    · exact ⟨applyOff, .off idx⟩

theorem RelayInstr.ne_init {i : Instr} {idx : Nat} {f : Byte → RelayPos → Byte}
    (h : RelayInstr i idx f) : i ≠ .init := by
  cases h <;> nofun

theorem ready_of_exec_eq_next {i : Instr} {s t : State} (hi : i ≠ .init) (h : exec i s = .next t) :
    s.ready = true := by
  by_contra hr
  rw [exec_eq_notReady hi (Bool.eq_false_iff.2 hr)] at h
  cases h

/-- R66: the result tells the end at which the index is rejected from the other eight. -/
theorem Ends.of_invalidRelayIndex {s t : State} {i : Instr} (h : Ends s i t)
    (hr : t.replies = s.replies ++ [.invalidRelayIndex]) :
    (∃ idx f, RelayInstr i idx f ∧ relayPos? idx = none) ∧ t = s.pushReply .invalidRelayIndex := by
  cases h with
  | invalidIndex hi _ hp => exact ⟨⟨_, _, hi, hp⟩, rfl⟩
  | initUndirected | initUnread | currentState | relayUnread => simp at hr
  | initUnwritten _ _ hv | initOk _ _ hv => simp [hv.keeps_ready_replies] at hr
  | relayUnwritten _ _ _ _ hc | relayOk _ _ _ _ hc => simp [hc.replies_eq] at hr

/-- Settles O34. -/
theorem invalidIndexIsRejectedFirst : Obligations.InvalidIndexIsRejectedFirst := by
  intro i s t h
  refine ⟨⟨fun hr => ?_, ?_⟩, fun hr => ((exec_ends h).of_invalidRelayIndex hr).2⟩
  · obtain ⟨⟨idx, f, hi, hp⟩, -⟩ := (exec_ends h).of_invalidRelayIndex hr
    have hinvalid := relayPos?_eq_none.1 hp
    exact ⟨idx, exists_relayInstr_iff.1 ⟨f, hi⟩, by omega⟩
  · rintro ⟨idx, hcommand, hidx⟩
    obtain ⟨f, hi⟩ := exists_relayInstr_iff.2 hcommand
    rw [hi.exec_invalidIndex (ready_of_exec_eq_next hi.ne_init h) hidx] at h
    cases h
    rfl

end Sys2Proof.Machine

/-! ## O41, O44: why a command stops

Each test of a command stops it only for a cause that stands in the state, and a delivery never stops it; so
every command, being built of these, stops only for such a cause. -/

namespace Sys2Proof.Machine

/-- The outcome `o` of a command from `s` is a next state, or a fault with its cause in `s`. -/
inductive StopsForCause (s : State) : Outcome → Prop where
  | next (t : State) : StopsForCause s (.next t)
  | notReady (h : s.ready = false ∨ s.cache = none) : StopsForCause s (.fault .notReady)
  | deviceSilent (h : s.devSilent = true) : StopsForCause s (.fault .deviceSilent)

namespace StopsForCause

variable {s : State}

theorem deliver (run : Reply × State) : StopsForCause s (deliver run) := .next _

theorem ifReady {k : Outcome} (hk : StopsForCause s k) : StopsForCause s (ifReady s k) := by
  unfold Machine.ifReady
  split
  · exact hk
  next h => exact .notReady (.inl (Bool.eq_false_iff.2 h))

theorem ifAnswering {k : Outcome} (hk : StopsForCause s k) : StopsForCause s (ifAnswering s k) := by
  unfold Machine.ifAnswering
  split
  next h => exact .deviceSilent h
  · exact hk

theorem readCache {k : Byte → Outcome} (hk : ∀ v, StopsForCause s (k v)) :
    StopsForCause s (readCache s k) := by
  unfold Machine.readCache
  split
  next v _ => exact hk v
  next h => exact .notReady (.inr h)

theorem readModifyWrite (f : Byte → RelayPos → Byte) (p : RelayPos) :
    StopsForCause s (readModifyWrite f p s) := by
  unfold Machine.readModifyWrite
  split
  next => exact readCache fun _ => ifAnswering (deliver _)
  next => exact ifAnswering (deliver _)

theorem relayCommand (f : Byte → RelayPos → Byte) (idx : Nat) :
    StopsForCause s (relayCommand f idx s) := by
  refine ifReady ?_
  split
  next => exact deliver _
  next p _ => exact readModifyWrite f p

end StopsForCause

theorem exec_stopsForCause (i : Instr) (s : State) : StopsForCause s (exec i s) := by
  cases i with
  | init => exact .ifAnswering (.deliver _)
  | turnOn idx => exact .relayCommand applyOn idx
  | turnOff idx => exact .relayCommand applyOff idx
  | currentState => exact .ifReady (.readCache fun _ => .deliver _)

theorem exec_ne_refused (i : Instr) (s : State) (r : Refusal) : exec i s ≠ .refused r := by
  intro h
  cases h ▸ exec_stopsForCause i s

theorem cause_of_exec_eq_notReady {i : Instr} {s : State} (h : exec i s = .fault .notReady) :
    s.ready = false ∨ s.cache = none := by
  cases h ▸ exec_stopsForCause i s with
  | notReady hcause => exact hcause

theorem devSilent_of_exec_eq_deviceSilent {i : Instr} {s : State} (h : exec i s = .fault .deviceSilent) :
    s.devSilent = true := by
  cases h ▸ exec_stopsForCause i s with
  | deviceSilent hcause => exact hcause

/-- `INIT` tests neither `READY` nor the cache (R57). -/
theorem exec_init_ne_notReady (s : State) : exec .init s ≠ .fault .notReady := by
  intro h
  rcases ifAnswering_eq_fault.1 h with ⟨-, hfault⟩ | ⟨-, hfault⟩
  · cases hfault
  · exact deliver_ne_fault hfault

/-- Under the invariant a cache without value is a controller that is not ready (R12). -/
theorem exec_eq_notReady_iff {i : Instr} {s : State} (hinv : s.Inv) :
    exec i s = .fault .notReady ↔ s.ready = false ∧ i ≠ .init := by
  obtain ⟨-, hready, -⟩ := hinv
  constructor
  · intro h
    refine ⟨?_, fun hi => exec_init_ne_notReady s (hi ▸ h)⟩
    rcases cause_of_exec_eq_notReady h with hr | hc
    · exact hr
    · rw [hready, hc, Option.isSome_none]
  · rintro ⟨hr, hi⟩
    exact exec_eq_notReady hi hr

/-- Settles O44: a refusal has no cause in any state, and each of the two faults has its own. -/
theorem whenACommandStops : Obligations.WhenACommandStops :=
  fun i s => ⟨exec_ne_refused i s, exec_eq_notReady_iff, devSilent_of_exec_eq_deviceSilent⟩

/-- Settles O41: `READY` is tested before the index (R72), and a run stops at its first fault. -/
theorem notReadyFaults : Obligations.NotReadyFaults := by
  refine ⟨fun s hr => ?_, fun _ _ _ => run_of_fault⟩
  exact ⟨fun idx => ⟨exec_eq_notReady nofun hr, exec_eq_notReady nofun hr⟩, exec_eq_notReady nofun hr⟩

end Sys2Proof.Machine

/-! ## O8, O9, O11, O15: words and commands

A word is one of four fields `op` above a 4-bit index, and on each of the four the decoder and the encoder are
known, so each direction between words and commands is read off. Placing a word in a byte loses nothing of it,
and a step runs a placed word in the very state in which it was placed. -/

namespace Sys2Proof

/-- An index that fits is its own 4-bit field. -/
theorem toNat_ofNat_of_indexFits {idx : Nat} (h : indexFits idx = true) :
    (BitVec.ofNat 4 idx).toNat = idx := by
  have hfits : idx ≤ 15 := of_decide_eq_true h
  rw [BitVec.toNat_ofNat, Nat.mod_eq_of_lt (by omega)]

/-- Settles O8: the index field gives back an index that fits. -/
theorem decodeOfEncode : Obligations.DecodeOfEncode := by
  intro i h
  cases i with
  | init => exact decode_init 0#4
  | turnOn idx => exact (decode_turnOn _).trans (congrArg Instr.turnOn (toNat_ofNat_of_indexFits h))
  | turnOff idx => exact (decode_turnOff _).trans (congrArg Instr.turnOff (toNat_ofNat_of_indexFits h))
  | currentState => exact decode_currentState 0#4

/-! ### From words to commands -/

/-- R36: the four rows of the table, with any index field. -/
theorem cmdWord_cases (w : CmdWord) :
    ∃ x : BitVec 4, w = 0b00#2 ++ x ∨ w = 0b01#2 ++ x ∨ w = 0b10#2 ++ x ∨ w = 0b11#2 ++ x := by
  have rows : ∀ op : BitVec 2, op = 0b00#2 ∨ op = 0b01#2 ∨ op = 0b10#2 ∨ op = 0b11#2 := by decide
  refine ⟨w.extractLsb' 0 4, ?_⟩
  rw [← opField_append_extractLsb' w, BitVec.extractLsb'_append_eq_right]
  rcases rows (opField w) with e | e | e | e <;> simp [e]

theorem indexFits_toNat (x : BitVec 4) : indexFits x.toNat = true :=
  decide_eq_true (Nat.le_of_lt_succ x.isLt)

theorem assembleFields_of_field (op : BitVec 2) (x : BitVec 4) : assembleFields op x.toNat = op ++ x := by
  rw [assembleFields, BitVec.ofNat_toNat, BitVec.setWidth_eq]

/-- Settles O9: an index field is kept where the command has an index, and 0 where it has none (R38). -/
theorem encodeOfDecode : Obligations.EncodeOfDecode := by
  intro w
  obtain ⟨x, rfl | rfl | rfl | rfl⟩ := cmdWord_cases w
  · rw [decode_init, opField_append]
    exact ⟨rfl, opField_append _ _, fun _ => idxField_append _ _, fun h => absurd rfl h⟩
  · have hword : encode (.turnOn x.toNat) = 0b01#2 ++ x := assembleFields_of_field _ x
    rw [decode_turnOn, hword]
    exact ⟨indexFits_toNat x, rfl, nofun, fun _ _ => rfl⟩
  · have hword : encode (.turnOff x.toNat) = 0b10#2 ++ x := assembleFields_of_field _ x
    rw [decode_turnOff, hword]
    exact ⟨indexFits_toNat x, rfl, nofun, fun _ _ => rfl⟩
  · rw [decode_currentState, opField_append]
    exact ⟨rfl, opField_append _ _, fun _ => idxField_append _ _, fun _ h => absurd rfl h⟩

/-- Settles O11: each word is its `op` above its index field. -/
theorem sampleWordsDecode : Obligations.SampleWordsDecode :=
  ⟨decode_init 0b0111#4, decode_turnOn 0b0101#4, decode_turnOn 0b1111#4, decode_turnOff 0b1000#4,
    decode_currentState 0b1111#4⟩

/-! ### Words in bytes -/

/-- Log 17: the byte of a word has the word in its low six bits. -/
theorem byteOfTable_toNat (w : CmdWord) : byteOfTable 8 w.toNat = some (w.setWidth 8) := by
  have hlt := w.isLt
  have hmod : w.toNat % 2 ^ 8 = w.toNat := by omega
  rw [byteOfTable, hmod, if_pos (by omega), BitVec.ofNat_toNat]

theorem wordOfByte_setWidth (w : CmdWord) : wordOfByte (w.setWidth 8) = .ok w := by
  have high : (w.setWidth 8).extractLsb' 6 2 = 0b00#2 := by
    ext k hk
    simp
  have low : (w.setWidth 8).extractLsb' 0 6 = w :=
    (BitVec.extractLsb'_setWidth_of_le (by decide)).trans BitVec.extractLsb'_eq_self
  rw [wordOfByte, if_pos high, low]

theorem wordOfTable_toNat (w : CmdWord) : wordOfTable 8 w.toNat = some w := by
  simp [wordOfTable, byteOfTable_toNat, wordOfByte_setWidth]

theorem decodeTableWord_toNat (w : CmdWord) : decodeTableWord 8 w.toNat = some (decode w) := by
  simp [decodeTableWord, byteOfTable_toNat, decodeBytes, wordOfByte_setWidth]

end Sys2Proof

namespace Sys2Proof.Machine

/-- A word placed as the next runs in the state in which it was placed (log 8). -/
theorem step_withFetchWord (s : State) (w : CmdWord) :
    step (s.withFetchWord 8 w.toNat) = exec (decode w) s := by
  rw [State.withFetchWord, wordOfTable_toNat]
  exact step_command rfl

/-- Settles O15, from O8. -/
theorem placedWordRunsItsCommand : Obligations.PlacedWordRunsItsCommand := by
  intro i s h
  have hdecode : decode (encode i) = i := decodeOfEncode i h
  rw [decodeTableWord_toNat, step_withFetchWord, hdecode]
  exact ⟨rfl, rfl⟩

end Sys2Proof.Machine

/-! ## O16, O18, O19, O20: the events and the invariant

What the controller holds, and the port while no one else writes it, is kept up to the last device operation of
every command; the invariant can then break only at the end of a command, and there either the command has
failed and the controller is as it was or without a value, or the byte in its cache is the one just accepted. -/

namespace Sys2Proof.Machine

/-! ### One step at each event -/

theorem step_nil {s : State} (h : s.events = []) : step s = .next s := by
  rw [step, takeEvent_nil h, waitForEvent]

section Event

variable {s : State} {rest : List EnvEvent}

theorem step_otherWrite {b : Byte} (h : s.events = .otherWrite b :: rest) :
    step s = .next (otherWrite b { s with events := rest }) := by
  rw [step, takeEvent_cons h]

theorem step_deviceSilent {q : Bool} (h : s.events = .deviceSilent q :: rest) :
    step s = .next (setSilent q { s with events := rest }) := by
  rw [step, takeEvent_cons h]

theorem step_restart {found : Option (Byte × Byte)} (h : s.events = .restart found :: rest) :
    step s = .next (restart found { s with events := rest }) := by
  rw [step, takeEvent_cons h]

end Event

theorem otherWrite_of_exclusive {s : State} (b : Byte) (h : s.params.exclusive = true) :
    otherWrite b s = s := by
  rw [otherWrite, if_pos h]

theorem otherWrite_of_shared {s : State} (b : Byte) (h : s.params.exclusive = false) :
    otherWrite b s = { s with devPort := b } := by
  rw [otherWrite, if_neg (Bool.eq_false_iff.1 h)]

/-- Settles O16. -/
theorem eventsBetweenCommands : Obligations.EventsBetweenCommands := by
  intro s
  refine ⟨step_nil, fun b rest he => ⟨fun hex => ?_, fun hex => ?_⟩, fun q rest he => step_deviceSilent he,
    fun rest he => step_restart he, fun port dir rest he => step_restart he⟩
  · exact (step_otherWrite he).trans (congrArg _ (otherWrite_of_exclusive b hex))
  · exact (step_otherWrite he).trans (congrArg _ (otherWrite_of_shared b hex))

/-! ### States with the invariant -/

/-- A controller that knows nothing, as after reset and after `DeviceInitError` (R16, R57). -/
theorem inv_of_not_ready {s : State} (hr : s.ready = false) (hc : s.cache = none) : s.Inv := by
  have contra : s.ready ≠ true := Bool.eq_false_iff.1 hr
  exact ⟨fun _ h => absurd h contra, by rw [hr, hc, Option.isSome_none], fun h => absurd h contra⟩

/-- A controller whose last write was accepted (R17). -/
theorem inv_of_accepted {s : State} (hr : s.ready = true) (hc : s.cache = some s.devPort)
    (hw : s.devWritten = true) (hdir : s.params.exclusive = true → s.devDir = 0xFF#8) : s.Inv :=
  ⟨fun hex _ => ⟨hc, hdir hex⟩, by rw [hr, hc, Option.isSome_some], fun _ => hw⟩

/-- Settles O18. -/
theorem invariantHoldsAfterReset : Obligations.InvariantHoldsAfterReset :=
  ⟨fun p port dir => inv_of_not_ready (State.start_ready p port dir) (State.start_cache p port dir), rfl,
    inv_of_not_ready (State.start_ready _ _ _) (State.start_cache _ _ _)⟩

/-! ### What a failing command keeps -/

/-- `t` is reached from `s` with the controller as it was, and the port too unless another writer may have
set it (R27). -/
structure KeepsController (s t : State) : Prop where
  params : t.params = s.params
  cache : t.cache = s.cache
  ready : t.ready = s.ready
  devWritten : t.devWritten = s.devWritten
  devPort : s.params.exclusive = true → t.devPort = s.devPort

namespace KeepsController

theorem refl (s : State) : KeepsController s s := ⟨rfl, rfl, rfl, rfl, fun _ => rfl⟩

theorem pushReply {s t : State} (h : KeepsController s t) (r : Reply) :
    KeepsController s (t.pushReply r) :=
  ⟨h.params, h.cache, h.ready, h.devWritten, h.devPort⟩

/-- A read, or a failed write. -/
theorem logDevOp {s t : State} (h : KeepsController s t) (e : BusEvent) :
    KeepsController s (t.beginDevOp.logBus e) where
  params := h.params
  cache := h.cache
  ready := h.ready
  devWritten := h.devWritten
  devPort hex := (portSeen_of_exclusive (h.params ▸ hex)).trans (h.devPort hex)

/-- The invariant asks nothing more of a kept controller than the direction. -/
theorem inv {s t : State} (h : KeepsController s t) (hs : s.Inv)
    (hdir : t.devDir = s.devDir ∨ t.devDir = 0xFF#8) : t.Inv := by
  obtain ⟨hcoherent, husable⟩ := hs
  refine ⟨fun hex hr => ?_, ?_⟩
  · rw [h.params] at hex
    obtain ⟨hcache, hout⟩ := hcoherent hex (h.ready ▸ hr)
    exact ⟨by rw [h.cache, h.devPort hex, hcache], hdir.elim (·.trans hout) id⟩
  · rwa [State.Usable, h.ready, h.cache, h.devWritten]

end KeepsController

theorem directed_keepsController (s : State) : KeepsController s (directed s) where
  params := rfl
  cache := rfl
  ready := rfl
  devWritten := rfl
  devPort hex := portSeen_of_exclusive hex

/-- `INIT` up to its write. -/
theorem InitialByte.keepsController {s s1 : State} {v : Byte} (h : InitialByte s v s1) :
    KeepsController s s1 := by
  cases h with
  | constant => exact directed_keepsController s
  | resync => exact (directed_keepsController s).logDevOp _

theorem InitialByte.devDir_eq {s s1 : State} {v : Byte} (h : InitialByte s v s1) :
    s1.devDir = 0xFF#8 := by
  cases h <;> rfl

/-- `TURN_ON` and `TURN_OFF` up to their write. -/
theorem CurrentByte.keepsController {s s1 : State} {cur : Byte} (h : CurrentByte s cur s1) :
    KeepsController s s1 := by
  cases h with
  | cached => exact .refl s
  | read => exact (KeepsController.refl s).logDevOp _

/-! ### The invariant along a command, a step, a run -/

theorem Ends.inv {s t : State} {i : Instr} (h : Ends s i t) (hs : s.Inv) : t.Inv := by
  cases h with
  | initUndirected | initUnread => exact inv_of_not_ready rfl rfl
  | initUnwritten _ _ hv =>
    exact ((hv.keepsController.logDevOp _).pushReply _).inv hs (.inr hv.devDir_eq)
  | initOk _ _ hv => exact inv_of_accepted rfl rfl rfl fun _ => hv.devDir_eq
  | currentState | invalidIndex => exact ((KeepsController.refl s).pushReply _).inv hs (.inl rfl)
  | relayUnread => exact (((KeepsController.refl s).logDevOp _).pushReply _).inv hs (.inl rfl)
  | relayUnwritten _ _ _ _ hc =>
    exact ((hc.keepsController.logDevOp _).pushReply _).inv hs (.inl hc.devDir_eq)
  | relayOk _ hr _ _ hc =>
    refine inv_of_accepted (hc.ready_eq.trans hr) rfl rfl fun hex => hc.devDir_eq.trans ?_
    exact (hs.1 (hc.keepsController.params ▸ hex) hr).2

theorem otherWrite_keepsController (b : Byte) (s : State) : KeepsController s (otherWrite b s) := by
  cases hex : s.params.exclusive with
  | true => rw [otherWrite_of_exclusive b hex]; exact .refl s
  | false =>
    rw [otherWrite_of_shared b hex]
    exact ⟨rfl, rfl, rfl, rfl, fun h => absurd h (Bool.eq_false_iff.1 hex)⟩

@[simp] theorem otherWrite_devDir (b : Byte) (s : State) : (otherWrite b s).devDir = s.devDir := by
  rcases otherWrite_cases b s with ⟨-, e⟩ | ⟨-, e⟩ <;> rw [e]

/-- Settles O19: a command keeps the invariant at each of its ends, and so does every event. -/
theorem stepKeepsTheInvariant : Obligations.StepKeepsTheInvariant := by
  intro s t hs h
  rcases step_cases h with ⟨-, rfl⟩ | ⟨w, rest, -, hx⟩ | ⟨b, rest, -, rfl⟩ | ⟨q, rest, -, rfl⟩ |
    ⟨f, rest, -, rfl⟩
  · exact hs
  · exact (exec_ends hx).inv hs
  · exact (otherWrite_keepsController b _).inv hs (.inl (otherWrite_devDir b _))
  · exact hs
  · exact inv_of_not_ready rfl rfl

theorem run_keeps_inv {n : Nat} {s t : State} (hs : s.Inv) (h : Sys2Proof.core.run n s = .next t) :
    t.Inv :=
  run_induction (P := fun s t => s.Inv → t.Inv) (fun _ => id) (fun _ _ _ hab hbc => hbc ∘ hab)
    (fun s t hstep hs => stepKeepsTheInvariant s t hs hstep) n s t h hs

theorem run_keepsHistory {n : Nat} {s t : State} (h : Sys2Proof.core.run n s = .next t) :
    KeepsHistory s t :=
  run_induction keepsHistory_refl (fun _ _ _ => .trans) (fun _ _ => step_keepsHistory) n s t h

/-- Settles O20: a run from reset keeps the parameters too, so the invariant at its end speaks of them. -/
theorem runsKeepTheInvariant : Obligations.RunsKeepTheInvariant := by
  refine ⟨fun n s t => run_keeps_inv, fun n p port dir es is t hex h hr => ?_⟩
  obtain ⟨hcoherent, -⟩ := run_keeps_inv (inv_of_not_ready rfl rfl) h
  have hparams : t.params = p := (run_keepsHistory h).params
  exact hcoherent (hparams ▸ hex) hr

end Sys2Proof.Machine

/-! ## O22, O25: the bytes written, and the operations issued

Each end of a command fixes its result together with what became of the cache; and the bus of each end is the
one before with the end's operations behind it, each allowed to the command. -/

namespace Sys2Proof.Machine

/-- The results of a command, each with what becomes of the cache (R30, R57, R89). -/
theorem Ends.reply_cache {s t : State} {i : Instr} (h : Ends s i t) :
    (t.replies = s.replies ++ [.ok] ∧
      ∃ v, t.bus.getLast? = some (.write v true) ∧ t.cache = some v ∧ t.devPort = v) ∨
    (t.replies = s.replies ++ [.deviceInitError] ∧ t.cache = none) ∨
    (∃ r, t.replies = s.replies ++ [r] ∧ r ≠ .ok ∧ r ≠ .deviceInitError ∧ t.cache = s.cache) := by
  cases h with
  | initUndirected | initUnread => exact .inr (.inl ⟨rfl, rfl⟩)
  | initUnwritten _ _ hv =>
    exact .inr (.inr ⟨.deviceWriteError, by simp [hv.keeps_ready_replies], nofun, nofun,
      hv.keepsController.cache⟩)
  | initOk _ _ hv => exact .inl ⟨by simp [hv.keeps_ready_replies], _, by simp, rfl, rfl⟩
  | currentState => exact .inr (.inr ⟨.okData _, rfl, nofun, nofun, rfl⟩)
  | invalidIndex => exact .inr (.inr ⟨.invalidRelayIndex, rfl, nofun, nofun, rfl⟩)
  | relayUnread => exact .inr (.inr ⟨.deviceWriteError, rfl, nofun, nofun, rfl⟩)
  | relayUnwritten _ _ _ _ hc =>
    exact .inr (.inr ⟨.deviceWriteError, by simp [hc.replies_eq], nofun, nofun,
      hc.keepsController.cache⟩)
  | relayOk _ _ _ _ hc => exact .inl ⟨by simp [hc.replies_eq], _, by simp, rfl, rfl⟩

/-- A command gives one result, so two that stand last are the same. -/
theorem reply_unique {s t : State} {r r' : Reply} (h : t.replies = s.replies ++ [r])
    (h' : t.replies = s.replies ++ [r']) : r = r' := by
  simpa using h.symm.trans h'

/-- Settles O22. -/
theorem cacheFollowsAcceptedWrites : Obligations.CacheFollowsAcceptedWrites := by
  intro i s t r h hr
  rcases (exec_ends h).reply_cache with ⟨hr', hv⟩ | ⟨hr', hc⟩ | ⟨r', hr', hok, herr, hc⟩
  · obtain rfl := reply_unique hr hr'
    exact ⟨fun _ => hv, nofun, fun h => absurd rfl h⟩
  · obtain rfl := reply_unique hr hr'
    exact ⟨nofun, fun _ => hc, fun _ h => absurd rfl h⟩
  · obtain rfl := reply_unique hr hr'
    exact ⟨fun h => absurd h hok, fun h => absurd h herr, fun _ _ => hc⟩

/-! ### The operations a command issues -/

/-- Which device operation the command `i` may issue from `s` (R20, R21, R23). -/
def mayIssue (s : State) (i : Instr) : BusEvent → Prop
  | .setDir m _ => i = .init ∧ m = 0xFF#8
  | .write _ _ => i ≠ .currentState
  | .read _ => (i = .init ∧ s.params.initResync = true) ∨
      (i ≠ .init ∧ i ≠ .currentState ∧ s.params.rmwSource = .deviceRead)

theorem not_mayIssue_currentState (s : State) (e : BusEvent) : ¬ mayIssue s .currentState e := by
  cases e with
  | setDir m ok => exact nofun
  | write v ok => exact fun h => h rfl
  | read a => rintro (⟨⟨⟩, -⟩ | ⟨-, h, -⟩); exact h rfl

/-- `t` is reached from `s` with nothing issued but operations with the property `P`. -/
def IssuesOnly (P : BusEvent → Prop) (s t : State) : Prop :=
  ∃ new, t.bus = s.bus ++ new ∧ ∀ e ∈ new, P e

namespace IssuesOnly

variable {P : BusEvent → Prop} {s t u : State}

theorem of_bus_eq (h : t.bus = s.bus) : IssuesOnly P s t := ⟨[], by simp [h], nofun⟩

theorem snoc (h : IssuesOnly P s t) {e : BusEvent} (hu : u.bus = t.bus ++ [e]) (he : P e) :
    IssuesOnly P s u := by
  obtain ⟨new, hbus, hnew⟩ := h
  refine ⟨new ++ [e], by rw [hu, hbus, List.append_assoc], fun e' he' => ?_⟩
  rcases List.mem_append.1 he' with hmem | hmem
  · exact hnew e' hmem
  · exact List.mem_singleton.1 hmem ▸ he

end IssuesOnly

theorem directed_issuesOnly (s : State) : IssuesOnly (mayIssue s .init) s (directed s) :=
  (IssuesOnly.of_bus_eq rfl).snoc (directed_bus s) ⟨rfl, rfl⟩

/-- `INIT` up to its write. -/
theorem InitialByte.issuesOnly {s s1 : State} {v : Byte} (h : InitialByte s v s1) :
    IssuesOnly (mayIssue s .init) s s1 := by
  cases h with
  | constant => exact directed_issuesOnly s
  | resync hp => exact (directed_issuesOnly s).snoc rfl (.inl ⟨rfl, hp⟩)

/-- `TURN_ON` and `TURN_OFF` up to their write. -/
theorem CurrentByte.issuesOnly {i : Instr} {idx : Nat} {f : Byte → RelayPos → Byte} {s s1 : State}
    {cur : Byte} (h : CurrentByte s cur s1) (hi : RelayInstr i idx f) :
    IssuesOnly (mayIssue s i) s s1 := by
  cases h with
  | cached => exact .of_bus_eq rfl
  | read hm => exact (IssuesOnly.of_bus_eq rfl).snoc rfl (.inr ⟨hi.ne_init, hi.ne_currentState, hm⟩)

theorem Ends.issuesOnly {s t : State} {i : Instr} (h : Ends s i t) :
    IssuesOnly (mayIssue s i) s t := by
  cases h with
  | initUndirected => exact (IssuesOnly.of_bus_eq rfl).snoc rfl ⟨rfl, rfl⟩
  | initUnread _ _ hp => exact (directed_issuesOnly s).snoc rfl (.inl ⟨rfl, hp⟩)
  | initUnwritten _ _ hv | initOk _ _ hv => exact hv.issuesOnly.snoc rfl nofun
  | currentState | invalidIndex => exact .of_bus_eq rfl
  | relayUnread hi _ _ _ hm =>
    exact (IssuesOnly.of_bus_eq rfl).snoc rfl (.inr ⟨hi.ne_init, hi.ne_currentState, hm⟩)
  | relayUnwritten hi _ _ _ hc | relayOk hi _ _ _ hc =>
    exact (hc.issuesOnly hi).snoc rfl hi.ne_currentState

/-- Settles O25. -/
theorem whoReachesTheDevice : Obligations.WhoReachesTheDevice := by
  intro i s t h
  obtain ⟨new, hbus, hnew⟩ := (exec_ends h).issuesOnly
  refine ⟨new, hbus, fun _ _ => hnew _, fun _ => hnew _, fun hi => ?_⟩
  subst hi
  exact List.eq_nil_iff_forall_not_mem.2 fun e he => not_mayIssue_currentState s e (hnew e he)

end Sys2Proof.Machine

/-! ## O35 to O39: `TURN_ON` and `TURN_OFF`, one after another

The result tells the ends of a relay command apart, so each rule starts from the end it speaks of: a failed
command has kept the controller, one that returned `OK` has written back its RelayBank function of the current
byte. What a second command does then follows from what that function does to a byte it has already changed. -/

namespace Sys2Proof.Machine

/-! ### The two relay instructions -/

theorem RelayInstr.unique {i : Instr} {idx idx' : Nat} {f f' : Byte → RelayPos → Byte}
    (h : RelayInstr i idx f) (h' : RelayInstr i idx' f') : idx' = idx ∧ f' = f := by
  cases h <;> cases h' <;> exact ⟨rfl, rfl⟩

/-- R52 of whichever function a relay command applies. -/
theorem RelayInstr.forcesOnly {i : Instr} {idx : Nat} {f : Byte → RelayPos → Byte}
    (h : RelayInstr i idx f) : ∃ on, ForcesOnly f on := by
  cases h with
  | on => exact ⟨true, applyOn_forcesOnly⟩
  | off => exact ⟨false, applyOff_forcesOnly⟩

/-- The function of a relay command leaves its relay as the command is named. -/
theorem exists_relayInstr_forcesOnly {i : Instr} {idx : Nat} {on : Bool}
    (h : (i = .turnOn idx ∧ on = true) ∨ (i = .turnOff idx ∧ on = false)) :
    ∃ f, RelayInstr i idx f ∧ ForcesOnly f on := by
  rcases h with ⟨rfl, rfl⟩ | ⟨rfl, rfl⟩
  · exact ⟨applyOn, .on idx, applyOn_forcesOnly⟩
  · exact ⟨applyOff, .off idx, applyOff_forcesOnly⟩

/-! ### The ends told apart by the result -/

section

variable {i : Instr} {idx : Nat} {f : Byte → RelayPos → Byte} {s t : State}

/-- A relay command that does not return `OK` keeps the controller (R66, R67). -/
theorem Ends.keepsController_of_not_ok (h : Ends s i t) (hi : RelayInstr i idx f)
    (hr : t.replies ≠ s.replies ++ [.ok]) : KeepsController s t := by
  cases h with
  | initUndirected | initUnread | initUnwritten | initOk => exact absurd rfl hi.ne_init
  | currentState => exact absurd rfl hi.ne_currentState
  | invalidIndex => exact (KeepsController.refl s).pushReply _
  | relayUnread => exact ((KeepsController.refl s).logDevOp _).pushReply _
  | relayUnwritten _ _ _ _ hc => exact (hc.keepsController.logDevOp _).pushReply _
  | relayOk _ _ _ _ hc => exact absurd (by simp [hc.replies_eq]) hr

/-- A relay command that returns `OK` has written back the new byte (R58, R59, R62). -/
theorem Ends.of_relay_ok (h : Ends s i t) (hi : RelayInstr i idx f)
    (hr : t.replies = s.replies ++ [.ok]) :
    ∃ p cur s1, s.ready = true ∧ relayPos? idx = some p ∧ CurrentByte s cur s1 ∧
      t = (((s1.beginDevOp.acceptWrite (f cur p)).logBus (.write (f cur p) true)).loadCache
        (f cur p)).pushReply .ok := by
  cases h with
  | initUndirected | initUnread | initUnwritten | initOk => exact absurd rfl hi.ne_init
  | currentState => exact absurd rfl hi.ne_currentState
  | invalidIndex | relayUnread => simp at hr
  | relayUnwritten _ _ _ _ hc => simp [hc.replies_eq] at hr
  | relayOk hi' hready _ hp hc =>
    obtain ⟨rfl, rfl⟩ := hi.unique hi'
    exact ⟨_, _, _, hready, hp, hc, rfl⟩

/-- In the baseline a relay command that returns `DeviceWriteError` had its one write fail (R67). -/
theorem Ends.of_cached_writeError (h : Ends s i t) (hi : RelayInstr i idx f)
    (hm : s.params.rmwSource = .cache) (hr : t.replies = s.replies ++ [.deviceWriteError]) :
    ∃ p cur, s.ready = true ∧ s.devSilent = false ∧ relayPos? idx = some p ∧ s.cache = some cur ∧
      t = (s.beginDevOp.logBus (.write (f cur p) false)).pushReply .deviceWriteError := by
  cases h with
  | initUndirected | initUnread | initUnwritten | initOk => exact absurd rfl hi.ne_init
  | currentState => exact absurd rfl hi.ne_currentState
  | invalidIndex => simp at hr
  | relayUnread _ _ _ _ hread => simp [hm] at hread
  | relayOk _ _ _ _ hc => simp [hc.replies_eq] at hr
  | relayUnwritten hi' hready hs hp hc =>
    obtain ⟨rfl, rfl⟩ := hi.unique hi'
    cases hc with
    | cached _ hcache => exact ⟨_, _, hready, hs, hp, hcache, rfl⟩
    | read hread => simp [hm] at hread

/-- In the baseline the current byte is the cached one, and reading it issues nothing (R58). -/
theorem CurrentByte.of_cache {cur : Byte} {s1 : State} (h : CurrentByte s cur s1)
    (hm : s.params.rmwSource = .cache) : s.cache = some cur ∧ s1 = s := by
  cases h with
  | cached _ hc => exact ⟨hc, rfl⟩
  | read hread => simp [hm] at hread

/-- In the baseline an `OK` of a relay command is one accepted write of the byte computed from the
cache. -/
theorem exec_cached_ok_cases (h : exec i s = .next t) (hi : RelayInstr i idx f)
    (hm : s.params.rmwSource = .cache) (hr : t.replies = s.replies ++ [.ok]) :
    ∃ p cur, relayPos? idx = some p ∧ s.cache = some cur ∧ t.cache = some (f cur p) ∧
      t.devPort = f cur p ∧ t.bus = s.bus ++ [.write (f cur p) true] := by
  obtain ⟨p, cur, s1, -, hp, hc, rfl⟩ := (exec_ends h).of_relay_ok hi hr
  obtain ⟨hcache, rfl⟩ := hc.of_cache hm
  exact ⟨p, cur, hp, hcache, rfl, rfl, rfl⟩

end

/-! ### One command -/

/-- Settles O35. -/
theorem failedRelayCommandChangesNothing : Obligations.FailedRelayCommandChangesNothing := by
  intro idx i s t hcommand h hr
  obtain ⟨f, hi⟩ := exists_relayInstr_iff.2 hcommand
  have kept := (exec_ends h).keepsController_of_not_ok hi hr
  have hdir := (exec_ends h).devDir_eq_of_ne_init hi.ne_init
  exact ⟨kept.cache, kept.ready, hdir, fun hex => ⟨kept.cache, kept.ready, kept.devPort hex, hdir⟩⟩

/-- Under the invariant, and without other writers, cache and read give the same current byte (R17, R23). -/
theorem CurrentByte.eq_devPort {s s1 : State} {cur : Byte} (h : CurrentByte s cur s1) (hs : s.Inv)
    (hex : s.params.exclusive = true) (hr : s.ready = true) : cur = s.devPort := by
  obtain ⟨hcoherent, -, hwritten⟩ := hs
  obtain ⟨hcache, hdir⟩ := hcoherent hex hr
  cases h with
  | cached _ hc => exact Option.some.inj (hc.symm.trans hcache)
  | read => exact (readByte_of_written hdir (hwritten hr)).trans (portSeen_of_exclusive hex)

/-- Settles O36: cache and port were one byte, and both are now its image under the command's function. -/
theorem okRelayCommandChangesOneRelay : Obligations.OkRelayCommandChangesOneRelay := by
  intro idx i on s t hcommand hs hex h hr
  obtain ⟨f, hi, hf⟩ := exists_relayInstr_forcesOnly hcommand
  obtain ⟨p, cur, s1, hready, hp, hc, rfl⟩ := (exec_ends h).of_relay_ok hi hr
  obtain rfl : cur = s.devPort := hc.eq_devPort hs hex hready
  obtain ⟨hcache, -⟩ := hs.1 hex hready
  obtain ⟨forced, preserved⟩ := hf s.devPort p
  exact ⟨p, s.devPort, f s.devPort p, (relayPos?_eq_some.1 hp).symm, hcache, rfl, forced, forced,
    fun q hq => ⟨preserved q hq, preserved q hq⟩⟩

/-! ### A second command -/

/-- Settles O37: the second command finds the relay as it would leave it. -/
theorem repeatedCommandWritesAgain : Obligations.RepeatedCommandWritesAgain := by
  intro idx i s t u hcommand hm h hr h' hr'
  obtain ⟨f, hi⟩ := exists_relayInstr_iff.2 hcommand
  obtain ⟨on, hf⟩ := hi.forcesOnly
  have hm' : t.params.rmwSource = .cache := (exec_keepsHistory h).params ▸ hm
  obtain ⟨p, cur, hp, -, htcache, htport, htbus⟩ := exec_cached_ok_cases h hi hm hr
  obtain ⟨p', cur', hp', hcur', hucache, huport, hubus⟩ := exec_cached_ok_cases h' hi hm' hr'
  obtain rfl : p' = p := Option.some.inj (hp'.symm.trans hp)
  obtain rfl : cur' = f cur p' := Option.some.inj (hcur'.symm.trans htcache)
  rw [hf.idempotent] at hucache huport hubus
  exact ⟨hucache.trans htcache.symm, huport.trans htport.symm, f cur p', htbus, hubus⟩

/-- Settles O38: a failed write has kept all that the new byte is computed from. -/
theorem retryWritesTheSameByte : Obligations.RetryWritesTheSameByte := by
  intro idx i s t hcommand hm h hr
  obtain ⟨f, hi⟩ := exists_relayInstr_iff.2 hcommand
  obtain ⟨p, cur, hready, hs, hp, hc, ht⟩ := (exec_ends h).of_cached_writeError hi hm hr
  have htready : t.ready = true := by simp [ht, hready]
  have htcache : t.cache = some cur := by simp [ht, hc]
  have htm : t.params.rmwSource = .cache := by simp [ht, hm]
  have hts : t.devSilent = false := by simp [ht, hs]
  refine ⟨f cur p, ?_⟩
  cases hw : t.input.ok with
  | true =>
    exact ⟨_, by rw [ht]; rfl, hi.exec_cached_ok htready hp htm htcache hts rfl hw, rfl,
      fun _ => ⟨rfl, rfl, rfl⟩, nofun⟩
  | false =>
    exact ⟨_, by rw [ht]; rfl, hi.exec_cached_fail htready hp htm htcache hts rfl hw, rfl, nofun,
      fun _ => ⟨htcache.trans hc.symm, rfl⟩⟩

/-! ### A command after another writer -/

theorem run_one (s : State) : Sys2Proof.core.run 1 s = step s := by
  cases h : step s with
  | next t => exact (run_of_next h).trans (run_zero t)
  | fault r => exact run_of_fault h
  | refused r => exact run_of_refused h

/-- With another writer at work, two steps run the command presented after its write from the state that
write left. -/
theorem run_otherWrite_command {s : State} {b : Byte} {w : CmdWord} {rest : List EnvEvent}
    (he : s.events = .otherWrite b :: .command w :: rest) (hex : s.params.exclusive = false) :
    Sys2Proof.core.run 2 s = exec (decode w) { s with events := rest, devPort := b } := by
  have first : step s = .next { s with events := .command w :: rest, devPort := b } :=
    (step_otherWrite he).trans (congrArg _ (otherWrite_of_shared b hex))
  rw [run_of_next first]
  exact (run_one _).trans (step_command rfl)

/-- Whatever its source, a current byte and an accepted write put the new byte in the port and the cache. -/
theorem CurrentByte.exec_ok {i : Instr} {idx : Nat} {f : Byte → RelayPos → Byte} {p : RelayPos}
    {s s1 : State} {cur : Byte} (hc : CurrentByte s cur s1) (hi : RelayInstr i idx f)
    (hr : s.ready = true) (hs : s.devSilent = false) (hp : relayPos? idx = some p)
    (hw : s1.input.ok = true) :
    ∃ t, exec i s = .next t ∧ t.devPort = f cur p ∧ t.cache = some t.devPort :=
  ⟨_, (Ends.relayOk hi hr hs hp hc hw).exec_eq, rfl, rfl⟩

/-- With no write of another writer just before it, a read of a port this block has written returns it. -/
theorem readByte_of_quiet {s : State} (hd : s.devDir = 0xFF#8) (hw : s.devWritten = true)
    (ho : s.input.other = none) : readByte s = s.devPort := by
  rw [readByte_of_written hd hw, DevInput.portSeen, ho, Option.getD_none, ite_self]

/-- Settles O39: the port after the command is its function of the current byte, which is the cached one in
the baseline and the other writer's after a read. -/
theorem staleCacheLosesTheOtherWrite : Obligations.StaleCacheLosesTheOtherWrite := by
  intro command mask hcommand idx b c w rest s he hw hex hr hc hs h1 h8 hok
  obtain ⟨p, hp, -⟩ := relayPos?_of_valid h1 h8
  obtain ⟨f, hi, hf⟩ := relayInstr_of_mask hcommand hp
  rw [run_otherWrite_command he hex, hw, ← hf, ← hf]
  refine ⟨fun hm => ?_, fun hm hdir hwritten hother hok' => ?_⟩
  · have cached := CurrentByte.cached (s := { s with events := rest, devPort := b }) hm hc
    exact cached.exec_ok hi hr hs hp hok
  · have read := CurrentByte.read (s := { s with events := rest, devPort := b }) hm hok
    have hcur : readByte { s with events := rest, devPort := b } = b :=
      readByte_of_quiet hdir hwritten hother
    rw [hcur] at read
    exact read.exec_ok hi hr hs hp ((input_logDevOp _ _).symm ▸ hok')

end Sys2Proof.Machine

/-! ## O42, O43, O45, O46: stops, progress, and what the baseline does not see

A relay command of a valid index comes to its read of the current byte, where a cache without value and a silent
device stop it. Without such a cause nothing stops. In the baseline each end is reached with whatever the device
holds, since none of its conditions is about it. -/

namespace Sys2Proof.Machine

/-! ### Stops -/

theorem readModifyWrite_of_no_value {s : State} (f : Byte → RelayPos → Byte) (p : RelayPos)
    (hm : s.params.rmwSource = .cache) (hc : s.cache = none) :
    readModifyWrite f p s = .fault .notReady := by
  simp [readModifyWrite, hm, hc]

theorem readModifyWrite_of_silent {s : State} (f : Byte → RelayPos → Byte) (p : RelayPos)
    (hs : s.devSilent = true) (hsource : s.params.rmwSource = .deviceRead ∨ s.cache.isSome = true) :
    readModifyWrite f p s = .fault .deviceSilent := by
  cases hm : s.params.rmwSource with
  | deviceRead => simp [readModifyWrite, hm, hs]
  | cache =>
    obtain ⟨cur, hc⟩ := Option.isSome_iff_exists.1 (hsource.resolve_left (by simp [hm]))
    simp [readModifyWrite, hm, hc, hs]

/-- Settles O42. -/
theorem cacheWithoutValueFaults : Obligations.CacheWithoutValueFaults := by
  intro s hr hc
  refine ⟨ifReady_eq_fault.2 (.inr ⟨hr, readCache_eq_fault.2 (.inl ⟨hc, rfl⟩)⟩), fun idx hm h1 h8 => ?_⟩
  obtain ⟨p, hp, -⟩ := relayPos?_of_valid h1 h8
  have fault : ∀ f, relayCommand f idx s = .fault .notReady := fun f =>
    (relayCommand_of_valid hr hp).trans (readModifyWrite_of_no_value f p hm hc)
  exact ⟨fault applyOn, fault applyOff⟩

/-- Settles O43. -/
theorem silentDeviceBlocks : Obligations.SilentDeviceBlocks := by
  intro s hs
  refine ⟨ifAnswering_eq_fault.2 (.inl ⟨hs, rfl⟩), fun idx hr h1 h8 hsource => ?_⟩
  obtain ⟨p, hp, -⟩ := relayPos?_of_valid h1 h8
  have fault : ∀ f, relayCommand f idx s = .fault .deviceSilent := fun f =>
    (relayCommand_of_valid hr hp).trans (readModifyWrite_of_silent f p hs hsource)
  exact ⟨fault applyOn, fault applyOff⟩

/-! ### Progress -/

/-- A ready controller with a value and an answering device has no cause to stop. -/
theorem exec_next_of_ready {s : State} (hr : s.ready = true) (hc : s.cache.isSome = true)
    (hs : s.devSilent = false) (i : Instr) : ∃ t, exec i s = .next t := by
  cases h : exec i s with
  | next t => exact ⟨t, rfl⟩
  | refused r => exact absurd h (exec_ne_refused i s r)
  | fault r =>
    cases r with
    | notReady =>
      rcases cause_of_exec_eq_notReady h with hr' | hc'
      · simp [hr] at hr'
      · simp [hc'] at hc
    | deviceSilent => simp [devSilent_of_exec_eq_deviceSilent h] at hs

/-- Settles O45: only a command can stop a step. -/
theorem readyControllerNeverStops : Obligations.ReadyControllerNeverStops := by
  refine ⟨fun s hs => ⟨_, execInit_eq_next.2 ⟨hs, rfl⟩⟩, fun s hinv hr hs => ?_⟩
  have hc : s.cache.isSome = true := hinv.2.1 ▸ hr
  cases he : s.events with
  | nil => exact ⟨s, step_nil he⟩
  | cons e rest =>
    cases e with
    | command w =>
      rw [step_command he]
      exact exec_next_of_ready (s := { s with events := rest }) hr hc hs (decode w)
    | otherWrite b => exact ⟨_, step_otherWrite he⟩
    | deviceSilent q => exact ⟨_, step_deviceSilent he⟩
    | restart found => exact ⟨_, step_restart he⟩

/-! ### The baseline and the device -/

/-- The state with another device behind the block. -/
def State.withDevice (s : State) (port dir : Byte) (written : Bool) : State :=
  { s with devPort := port, devDir := dir, devWritten := written }

/-- In the baseline each end is reached as well with another device, and looks the same to the host and on
the bus. -/
theorem Ends.withDevice {s t : State} {i : Instr} (h : Ends s i t) (hp : s.params.initResync = false)
    (hm : s.params.rmwSource = .cache) (port dir : Byte) (written : Bool) :
    ∃ t', Ends (s.withDevice port dir written) i t' ∧
      t'.cache = t.cache ∧ t'.ready = t.ready ∧ t'.bus = t.bus ∧ t'.replies = t.replies := by
  cases h with
  | initUndirected hs ho => exact ⟨_, .initUndirected hs ho, rfl, rfl, rfl, rfl⟩
  | initUnread _ _ hp' => simp [hp] at hp'
  | initUnwritten hs ho hv hw =>
    cases hv with
    | constant => exact ⟨_, .initUnwritten hs ho (.constant hp) hw, rfl, rfl, rfl, rfl⟩
    | resync hp' => simp [hp] at hp'
  | initOk hs ho hv hw =>
    cases hv with
    | constant => exact ⟨_, .initOk hs ho (.constant hp) hw, rfl, rfl, rfl, rfl⟩
    | resync hp' => simp [hp] at hp'
  | currentState hr hc => exact ⟨_, .currentState hr hc, rfl, rfl, rfl, rfl⟩
  | invalidIndex hi hr hidx => exact ⟨_, .invalidIndex hi hr hidx, rfl, rfl, rfl, rfl⟩
  | relayUnread _ _ _ _ hread => simp [hm] at hread
  | relayUnwritten hi hr hs hidx hc hw =>
    obtain ⟨hcache, rfl⟩ := hc.of_cache hm
    exact ⟨_, .relayUnwritten hi hr hs hidx (.cached hm hcache) hw, rfl, rfl, rfl, rfl⟩
  | relayOk hi hr hs hidx hc hw =>
    obtain ⟨hcache, rfl⟩ := hc.of_cache hm
    exact ⟨_, .relayOk hi hr hs hidx (.cached hm hcache) hw, rfl, rfl, rfl, rfl⟩

/-- Settles O46. -/
theorem baselineNeverLooksAtThePort : Obligations.BaselineNeverLooksAtThePort := by
  intro i s t port dir written hp hm h
  obtain ⟨t', hend, hseen⟩ := (exec_ends h).withDevice hp hm port dir written
  exact ⟨t', hend.exec_eq, hseen⟩

end Sys2Proof.Machine

/-! ## O1, O5, O6, O7: RelayBank as a whole

A byte is its eight relays (`byte_ext`), so each equation between bytes is one about a relay, and there what
`ForcesOnly` says of the two functions is enough: whatever two such functions do, on distinct relays they
commute, and on one relay the second alone counts. -/

namespace Sys2Proof.Machine

/-- Settles O1. -/
theorem indexAndBitPositionsAgree : Obligations.IndexAndBitPositionsAgree := by
  refine ⟨fun idx p => ?_, fun idx => ?_⟩
  · have hlt := p.isLt
    rw [relayPos?_eq_some, RelayPos.index]
    omega
  · rw [relayPos?_eq_none]
    omega

namespace ForcesOnly

variable {f g : Byte → RelayPos → Byte} {a b : Bool}

/-- R53 as corrected there: on distinct relays the order does not matter. -/
theorem comm (hf : ForcesOnly f a) (hg : ForcesOnly g b) (x : Byte) {i j : RelayPos} (hij : i ≠ j) :
    g (f x i) j = f (g x j) i := by
  refine byte_ext fun q => ?_
  by_cases hi : q = i
  · subst hi
    rw [(hg _ j).2 q hij, (hf x q).1, (hf _ q).1]
  · rw [(hf _ i).2 q hi]
    by_cases hj : q = j
    · subst hj
      rw [(hg _ q).1, (hg x q).1]
    · rw [(hg _ j).2 q hj, (hg x j).2 q hj, (hf x i).2 q hi]

/-- Exchanging the relays but not the functions shows at the first relay. -/
theorem ne_of_swap (hf : ForcesOnly f a) (hg : ForcesOnly g b) (hab : a ≠ b) (x : Byte) {i j : RelayPos}
    (hij : i ≠ j) : g (f x i) j ≠ f (g x i) j := by
  intro h
  have hrelay := congrArg (relaySel · i) h
  simp only [(hg _ j).2 i hij, (hf x i).1, (hf _ j).2 i hij, (hg x i).1] at hrelay
  exact hab hrelay

/-- On one relay only the second function counts. -/
theorem absorb (hf : ForcesOnly f a) (hg : ForcesOnly g b) (x : Byte) (p : RelayPos) :
    g (f x p) p = g x p := by
  refine byte_ext fun q => ?_
  by_cases hq : q = p
  · subst hq
    rw [(hg _ q).1, (hg x q).1]
  · rw [(hg _ p).2 q hq, (hf x p).2 q hq, (hg x p).2 q hq]

theorem eq_self_iff (hf : ForcesOnly f a) (x : Byte) (p : RelayPos) : f x p = x ↔ relaySel x p = a := by
  obtain ⟨forced, preserved⟩ := hf x p
  refine ⟨fun h => h ▸ forced, fun h => byte_ext fun q => ?_⟩
  by_cases hq : q = p
  · rw [hq, forced, h]
  · exact preserved q hq

end ForcesOnly

/-- Settles O5. -/
theorem distinctRelaysCommute : Obligations.DistinctRelaysCommute := by
  intro x i j hij
  exact ⟨applyOff_forcesOnly.comm applyOn_forcesOnly x hij, applyOn_forcesOnly.comm applyOn_forcesOnly x hij,
    applyOff_forcesOnly.comm applyOff_forcesOnly x hij,
    applyOff_forcesOnly.ne_of_swap applyOn_forcesOnly nofun x hij⟩

/-- Settles O7. -/
theorem settingIsNotToggling : Obligations.SettingIsNotToggling := by
  intro x p
  rw [applyOn_forcesOnly.absorb applyOff_forcesOnly, applyOff_forcesOnly.absorb applyOn_forcesOnly]
  exact ⟨applyOff_forcesOnly.eq_self_iff x p, applyOn_forcesOnly.eq_self_iff x p⟩

/-! ### The eight masks -/

/-- R45: bit `j` stands in the mask of the relay at `j` and in no other. -/
theorem bitMaskOn_getLsbD_iff (p : RelayPos) (j : Nat) :
    (bitMaskOn p).getLsbD j = true ↔ j = p.val := by
  rw [bitMaskOn_getLsbD, decide_eq_true_iff]

theorem bitMaskOn_injective {p q : RelayPos} (h : bitMaskOn p = bitMaskOn q) : p = q :=
  Fin.ext ((bitMaskOn_getLsbD_iff q p.val).1 (h ▸ (bitMaskOn_getLsbD_iff p p.val).2 rfl))

theorem bitMaskOn_disjoint {p q : RelayPos} (h : p ≠ q) : bitMaskOn p &&& bitMaskOn q = 0x00#8 := by
  refine BitVec.eq_of_getLsbD_eq fun j _ => ?_
  have hne : ¬ (j = p.val ∧ j = q.val) := fun ⟨hp, hq⟩ => h (Fin.ext (hp.symm.trans hq))
  simpa [bitMaskOn_getLsbD] using hne

/-- Settles O6. -/
theorem masksCoverThePortOnce : Obligations.MasksCoverThePortOnce := by
  refine ⟨fun p q => bitMaskOn_injective, fun j hj => ⟨⟨j, hj⟩, (bitMaskOn_getLsbD_iff _ j).2 rfl, ?_⟩,
    rfl, fun p q => bitMaskOn_disjoint⟩
  exact fun q hq => Fin.ext ((bitMaskOn_getLsbD_iff q j).1 hq).symm

end Sys2Proof.Machine
